-- ==== Sys2Proof/Word.lean ====
section
/-! DEFINITION. The widths of the values the manual carries (00_scope, section 4; R197). -/

namespace Sys2Proof

/-- One byte of a frame, a record or a field. -/
abbrev Byte := BitVec 8

/-- A level, 0 to 65535 (00_scope, section 4; R197). -/
abbrev Level := BitVec 16

/-- A rate as a profile record carries it, three bytes (R197). -/
abbrev RateField := BitVec 24

/-- A set of condition kinds as the link carries it: bit k is 1 when kind k is in the set (R197). -/
abbrev KindSet := BitVec 16

/-- A checksum over a program set image (R164). -/
abbrev Crc32 := BitVec 32

/-- A frame check (R8). -/
abbrev Crc16 := BitVec 16

end Sys2Proof
end

