-- ==== Sys2Proof/Config.lean ====
section
/-! DEFINITION. What is fixed for the part (its times in periods of the 20 MHz clock, its capacities, its identity)
and the two free values: the choices of order and the working times that the manual leaves open. -/

namespace Sys2Proof.Config

/-- Output channels, and slots of each input port (00_scope, section 4; R20, R40). -/
abbrev channels : Nat := 384

/-- Clock periods in one millisecond: the part is clocked at 20 MHz (00_scope, section 7). -/
abbrev msClocks : Nat := 20000

/-- Clock periods in one 10-bit character of 4 µs (R1). -/
abbrev characterClocks : Nat := 80

/-- Clock periods from the leading edge of a start bit to the stop-bit sample, nine and a half bit times (R2). -/
abbrev sampleClocks : Nat := 76

/-- Clock periods from the stop-bit sample to the end of the stop bit, half a bit time (R3). -/
abbrev halfBitClocks : Nat := 4

/-- The inter-frame idle and the transmitter's gap, 12 µs (R3, R15). -/
abbrev gapClocks : Nat := 240

/-- The idle inside a frame that truncates it, 8 µs (R3, R9). -/
abbrev truncationClocks : Nat := 160

/-- Unit of the fade tick period, 0.5 ms (R68). -/
abbrev tickUnit : Nat := 10000

/-- Unit of the loss times, 10 ms (R24). -/
abbrev lossUnit : Nat := 200000

/-- Unit of the hold times, 100 ms (R24). -/
abbrev holdUnit : Nat := 2000000

/-- Unit of the session timeout, 1 s (R152, R161). -/
abbrev sessionUnit : Nat := 20000000

/-- Entries the reply queue may hold (R136). -/
abbrev queueCapacity : Nat := 8

/-- Frames each of the forward FIFO and the relay FIFO may hold (R116, R118). -/
abbrev fifoCapacity : Nat := 4

/-- The largest position of a fade context (R64). -/
abbrev maxPosition : Nat := 16777215

/-- Where the missed-refresh count stays (R108). -/
abbrev maxMissed : Nat := 65535

/-- Vendor code, part code and revision of the identity record (R142, R207). -/
def vendorCode : BitVec 16 := 0x1D4A
/-- See `vendorCode`. -/
def partCode : BitVec 16 := 0x0384
/-- See `vendorCode`. -/
def revision : Byte := 1

/-- FREE VALUE (log entry 3). Where the manual lets either of several events of one instant be taken first and no
command fixes the order, the n-th such choice of a run is read here. -/
opaque choice : Nat → Nat

/-- FREE VALUE (log entry 4). How long a verification or a bank copy begun at a given clock takes: the manual says
only that it is later than the start and no more than 1 ms after it (R163, R173). -/
opaque workTime : Nat → Nat

end Sys2Proof.Config
end

