-- ==== Sys2Proof/Syntax.lean ====
section
/-! DEFINITION. The commands: one constructor of `Instr` for each row of spec/opcode_table.json. A command is an event
at the part's pins, links or timers, taken whole (95_what_each_step_holds). -/

namespace Sys2Proof

/-- The two input ports (00_scope, section 2). -/
inductive Port where
  | a | b
  deriving DecidableEq, Repr

/-- The three link receivers (chapter 1). -/
inductive Receiver where
  | aRx | bRx | dReturnRx
  deriving DecidableEq, Repr

/-- The three link transmitters (chapter 1). -/
inductive Transmitter where
  | dTx | aReturnTx | bReturnTx
  deriving DecidableEq, Repr

/-- The receive errors that the RECEIVE_ERROR row names (R11); TRUNCATED is a row of its own. -/
inductive DetectedError where
  | character | length | crc | format
  deriving DecidableEq, Repr

/-- A frame as a receiver hands it on: its kind and its payload (R4, R13). The payload length is the payload's, and
the CRC-16 is a function of both (R16). -/
structure Frame where
  kind : Byte
  payload : List Byte
  deriving DecidableEq, Repr

/-- The fields of a LEVEL payload (R10, R199). The count field is the number of levels. -/
structure LevelFrame where
  stream : BitVec 4
  sequence : Byte
  first : BitVec 16
  levels : List Level
  deriving DecidableEq, Repr

/-- The header of a REQUEST payload without its command code, and the port it arrived on (R124, R200). -/
structure RequestHeader where
  port : Port
  destination : Byte
  tag : Byte
  reserved : Byte
  deriving DecidableEq, Repr

/-- The commands of the part. The request commands carry their argument fields as the link carries them (R204), so
that values the part refuses can be written too; `extra` is the payload bytes beyond the fixed argument bytes. -/
inductive Instr where
  /-- HARD_RESET (R179): RESET is asserted. -/
  | hardReset
  /-- RESET_RELEASE (R14): RESET is released; the ADDR straps, and the levels of the three received lines, high or
  low, as they stand at that moment (R3, R127). -/
  | resetRelease (straps : BitVec 6) (aHigh bHigh dHigh : Bool)
  /-- PAUSE_ASSERT (R184). -/
  | pauseAssert
  /-- PAUSE_RELEASE (R184). -/
  | pauseRelease
  /-- INTER_FRAME_IDLE (R6): the receiver's measured idle reaches 12 µs. -/
  | interFrameIdle (rx : Receiver)
  /-- TRUNCATED (R9): the receiver's measured idle passes 8 µs. -/
  | truncated (rx : Receiver)
  /-- RECEIVE_ERROR (R11): the receiver detects an error of this kind. -/
  | receiveError (rx : Receiver) (error : DetectedError)
  /-- LEVEL_FRAME_A (R18): a LEVEL frame completes at A-rx with its CRC check passed. -/
  | levelFrameA (frame : LevelFrame)
  /-- LEVEL_FRAME_B (R19): a LEVEL frame completes at B-rx with its CRC check passed. -/
  | levelFrameB (frame : LevelFrame)
  /-- FORWARD_FRAME (R115): a REPLY, NOTICE or opaque frame completes at A-rx. -/
  | forwardFrame (frame : Frame)
  /-- RELAY_FRAME (R118): a frame of any kind completes at D-return-rx. -/
  | relayFrame (frame : Frame)
  /-- REQUEST_NOT_TAKEN (R128): a REQUEST for another node completes. -/
  | requestNotTaken (h : RequestHeader) (code : Byte) (args : List Byte)
  /-- BAD_COMMAND (R134): a REQUEST with an unknown command code completes. -/
  | badCommand (h : RequestHeader) (code : Byte) (args : List Byte)
  /-- IDENTIFY (R142). -/
  | identify (h : RequestHeader) (extra : List Byte)
  /-- READ_STATUS (R143). -/
  | readStatus (h : RequestHeader) (extra : List Byte)
  /-- READ_CHANNELS (R90). -/
  | readChannels (h : RequestHeader) (first : BitVec 16) (count : Byte) (extra : List Byte)
  /-- READ_INPUTS (R38). -/
  | readInputs (h : RequestHeader) (port : Byte) (first : BitVec 16) (count : Byte) (extra : List Byte)
  /-- READ_TABLE (R176). -/
  | readTable (h : RequestHeader) (bank table : Byte) (index : BitVec 16) (count : Byte) (extra : List Byte)
  /-- OPEN_SESSION (R156). -/
  | openSession (h : RequestHeader) (token : BitVec 16) (extra : List Byte)
  /-- WRITE_TABLE (R159): `entries` is every payload byte after the fixed argument bytes. -/
  | writeTable (h : RequestHeader) (token : BitVec 16) (table : Byte) (index : BitVec 16) (count : Byte)
      (entries : List Byte)
  /-- COMMIT (R163). -/
  | commit (h : RequestHeader) (token : BitVec 16) (expected : Crc32) (extra : List Byte)
  /-- ABORT_SESSION (R175). -/
  | abortSession (h : RequestHeader) (token : BitVec 16) (extra : List Byte)
  /-- FORCE (R93). -/
  | force (h : RequestHeader) (first count : BitVec 16) (level : Level) (profile : Byte) (extra : List Byte)
  /-- RELEASE (R95). -/
  | release (h : RequestHeader) (first count : BitVec 16) (extra : List Byte)
  /-- SAVE_SCENE (R97). -/
  | saveScene (h : RequestHeader) (scene : Byte) (extra : List Byte)
  /-- ACK_CONDITIONS (R185). -/
  | ackConditions (h : RequestHeader) (kinds : KindSet) (extra : List Byte)
  /-- RESTART (R145). -/
  | restart (h : RequestHeader) (extra : List Byte)
  /-- FADE_TICK (R71): the fade tick timer expires. -/
  | fadeTick
  /-- REFRESH_EXPIRY (R108): the refresh timer expires. -/
  | refreshExpiry
  /-- LOSS_EXPIRY (R29): the port's loss timer expires. -/
  | lossExpiry (p : Port)
  /-- HOLD_EXPIRY (R30): the port's hold timer expires. -/
  | holdExpiry (p : Port)
  /-- SESSION_EXPIRY (R162): the inactivity timer expires. -/
  | sessionExpiry
  /-- VERIFICATION_COMPLETE (R165). -/
  | verificationComplete
  /-- COPY_COMPLETE (R174). -/
  | copyComplete
  /-- TRANSMIT_COMPLETE (R15): the last character of the frame being sent ends. -/
  | transmitComplete (tx : Transmitter)
  /-- GAP_END (R15): the 12 µs gap ends. -/
  | gapEnd (tx : Transmitter)
  /-- CHARACTER_RECEIVED (R2, R6): the ten samples of a character, in the order taken: bit 0 the start bit, bits 1 to 8
  the data bits least significant first, bit 9 the stop bit (R1). -/
  | characterReceived (rx : Receiver) (samples : BitVec 10)
  /-- LINE_RETURN_HIGH (R3). -/
  | lineReturnHigh (rx : Receiver)
  /-- B_FRAME_DISCARDED (R13): a REPLY, NOTICE or opaque frame completes at B-rx. -/
  | bFrameDiscarded (frame : Frame)
  deriving DecidableEq, Repr

end Sys2Proof
end

