-- ==== Sys2Proof/Machine/Bytes.lean ====
section
/-! DEFINITION. Byte order and the two checksums: how fields of several bytes are carried (R197), the CRC-16 of a frame
(R8) and the CRC-32 of a program set image (R164). -/

namespace Sys2Proof.Machine

/-- A two-byte field from its bytes, most significant first (R197). -/
def pair (hi lo : Byte) : BitVec 16 := hi ++ lo

/-- A three-byte field from its bytes, most significant first (R197). -/
def triple (b2 b1 b0 : Byte) : BitVec 24 := b2 ++ b1 ++ b0

/-- A four-byte field from its bytes, most significant first (R197). -/
def quad (b3 b2 b1 b0 : Byte) : BitVec 32 := b3 ++ b2 ++ b1 ++ b0

/-- The bytes of a two-byte field (R197). -/
def bytes16 (x : BitVec 16) : List Byte := [x.extractLsb' 8 8, x.extractLsb' 0 8]

/-- The bytes of a three-byte field (R197). -/
def bytes24 (x : BitVec 24) : List Byte := [x.extractLsb' 16 8, x.extractLsb' 8 8, x.extractLsb' 0 8]

/-- The bytes of a four-byte field (R197). -/
def bytes32 (x : BitVec 32) : List Byte :=
  [x.extractLsb' 24 8, x.extractLsb' 16 8, x.extractLsb' 8 8, x.extractLsb' 0 8]

/-- The bytes of a list of two-byte fields. -/
def bytesOfHalves (xs : List (BitVec 16)) : List Byte := xs.flatMap bytes16

/-- The two-byte fields of a list of bytes; a last odd byte is left out. -/
def halves : List Byte → List (BitVec 16)
  | hi :: lo :: rest => pair hi lo :: halves rest
  | _ => []

/-- The byte at an offset; 0 beyond the end. -/
def byteAt (l : List Byte) (i : Nat) : Byte := l.getD i 0

/-- `count` consecutive pieces of `size` bytes. -/
def chunks (size : Nat) : Nat → List Byte → List (List Byte)
  | 0, _ => []
  | k + 1, l => l.take size :: chunks size k (l.drop size)

/-- One place of the shift register of a CRC: the bit shifted out of the top selects the polynomial (R8, R164). -/
def crcShift {n : Nat} (poly r : BitVec n) : BitVec n :=
  if r.msb then (r <<< 1) ^^^ poly else r <<< 1

/-- One byte folded into a CRC-16 (R8). -/
def crc16Byte (r : Crc16) (b : Byte) : Crc16 :=
  (crcShift 0x1021#16)^[8] (r ^^^ (b ++ 0#8))

/-- The CRC-16 of a list of bytes (R8). -/
def crc16 (l : List Byte) : Crc16 := l.foldl crc16Byte 0xFFFF

/-- One byte folded into a CRC-32 (R164). -/
def crc32Byte (r : Crc32) (b : Byte) : Crc32 :=
  (crcShift 0x04C11DB7#32)^[8] (r ^^^ (b ++ 0#24))

/-- The CRC-32 of a list of bytes: the register is inverted at the end (R164). -/
def crc32 (l : List Byte) : Crc32 := ~~~ (l.foldl crc32Byte 0xFFFFFFFF)

end Sys2Proof.Machine
end

