-- ==== Sys2Proof/Machine/Table.lean ====
section
/-! DEFINITION. Fixed tables: the operations on a vector that the machine uses, each by structural recursion on the
list of its entries. -/

namespace Sys2Proof.Machine.Table

/-- `f` applied to each element of a list whose first element has number `i`. -/
def mapFrom {α β : Type} (n : Nat) (f : Fin n → α → β) :
    (i : Nat) → (l : List α) → i + l.length = n → List β
  | _, [], _ => []
  | i, a :: as, h =>
    f ⟨i, by simp only [List.length_cons] at h; omega⟩ a ::
      mapFrom n f (i + 1) as (by simp only [List.length_cons] at h; omega)

theorem length_mapFrom {α β : Type} (n : Nat) (f : Fin n → α → β) (i : Nat) (l : List α) (h : i + l.length = n) :
    (mapFrom n f i l h).length = l.length := by
  induction l generalizing i with
  | nil => rfl
  | cons a as ih => simp [mapFrom, ih]

/-- Every entry replaced by a function of its number and itself. -/
def mapFin {α β : Type} {n : Nat} (f : Fin n → α → β) (v : Vector α n) : Vector β n :=
  ⟨(mapFrom n f 0 v.toList (by simp)).toArray, by simp [length_mapFrom]⟩

/-- The entries `es` written one after another from entry `start`, going on at entry 0 after the last (R159). -/
def writeCyclic {α : Type} {n : Nat} : Nat → List α → Vector α n → Vector α n
  | _, [], v => v
  | start, e :: es, v => writeCyclic (start + 1) es (v.setIfInBounds (start % n) e)

/-- `count` entries from entry `first`. -/
def readRange {α : Type} {n : Nat} (first count : Nat) (v : Vector α n) : List α :=
  (v.toList.drop first).take count

/-- Whether some entry of two tables of one size, taken together, satisfies `p`. -/
def anyPair {α β : Type} {n : Nat} (p : α → β → Bool) (u : Vector α n) (v : Vector β n) : Bool :=
  (u.toList.zip v.toList).any fun x => p x.1 x.2

/-- The number of the first entry that satisfies `p`, counting from `i`, with what `p` answers for it. -/
def findFrom {α β : Type} (p : α → Option β) : Nat → List α → Option (Nat × β)
  | _, [] => none
  | i, a :: as =>
    match p a with
    | some b => some (i, b)
    | none => findFrom p (i + 1) as

end Sys2Proof.Machine.Table
end

