-- ==== Sys2Proof/Machine/Operands.lean ====
section
/-! DEFINITION. The records of the program set, held field by field exactly as carried, reserved fields and reserved
encodings included (R151), with their layouts (R210 to R213), their defaults (R154), the image of a bank (R151), and
the forms of a request's arguments (R204). -/

namespace Sys2Proof.Machine

/-- One value for each input port. -/
structure PerPort (α : Type) where
  a : α
  b : α
  deriving DecidableEq, Repr

/-- The value of a port. -/
def PerPort.get {α : Type} (x : PerPort α) : Port → α
  | .a => x.a
  | .b => x.b

/-- The value of one port replaced. -/
def PerPort.set {α : Type} (x : PerPort α) (p : Port) (v : α) : PerPort α :=
  match p with
  | .a => { x with a := v }
  | .b => { x with b := v }

/-- The configuration record, field by field as carried (R152, R210). -/
structure ConfigRecord where
  outputStream : Byte
  accepted : PerPort Byte
  reserved3 : Byte
  outputLength : BitVec 16
  refreshPeriod : Byte
  tickPeriod : Byte
  lossTime : PerPort Byte
  holdTime : PerPort Byte
  acquireCount : Byte
  fallbackScene : Byte
  fallbackProfile : Byte
  sessionTimeout : Byte
  forwardEnable : Byte
  summaryLength : Byte
  summary : Vector Byte 8
  alertMask : KindSet
  noticeMask : KindSet
  reserved30 : BitVec 16
  deriving DecidableEq, Repr

/-- A map entry, field by field as carried (R40, R211). -/
structure MapEntry where
  rule : BitVec 3
  profile : BitVec 5
  curve : BitVec 4
  reserved : BitVec 3
  hold : BitVec 1
  source1 : BitVec 16
  source2 : BitVec 16
  deriving DecidableEq, Repr

/-- A profile record, field by field as carried (R66, R212). -/
structure ProfileRecord where
  kind : Byte
  reserved1 : Byte
  startRate : RateField
  breakRate : RateField
  maxRate : RateField
  accelLow : BitVec 16
  accelHigh : BitVec 16
  decelHigh : BitVec 16
  decelLow : BitVec 16
  floorRate : RateField
  reserved22 : BitVec 16
  deriving DecidableEq, Repr

/-- A curve record: its 17 points (R50, R213). -/
abbrev CurveRecord := Vector Level 17

/-- A bank: one complete program set (R150). -/
structure Bank where
  config : ConfigRecord
  map : Vector MapEntry Config.channels
  profiles : Vector ProfileRecord 16
  curves : Vector CurveRecord 8
  deriving DecidableEq, Repr

/-- The tables that table commands name (R150). -/
inductive TableName where
  | config | map | profiles | curves | scenes
  deriving DecidableEq, Repr

/-- The commands of the management catalogue (section 7.5; R204). -/
inductive Command where
  | identify | readStatus | readChannels | readInputs | readTable
  | openSession | writeTable | commit | abortSession
  | force | release | saveScene | ackConditions | restart
  deriving DecidableEq, Repr

/-! ## Layouts (R210 to R213) -/

/-- R210. -/
def ConfigRecord.bytes (c : ConfigRecord) : List Byte :=
  [c.outputStream, c.accepted.a, c.accepted.b, c.reserved3] ++ bytes16 c.outputLength ++
  [c.refreshPeriod, c.tickPeriod, c.lossTime.a, c.lossTime.b, c.holdTime.a, c.holdTime.b, c.acquireCount,
    c.fallbackScene, c.fallbackProfile, c.sessionTimeout, c.forwardEnable, c.summaryLength] ++
  c.summary.toList ++ bytes16 c.alertMask ++ bytes16 c.noticeMask ++ bytes16 c.reserved30

/-- R210, read. -/
def ConfigRecord.ofBytes (l : List Byte) : ConfigRecord where
  outputStream := byteAt l 0
  accepted := ⟨byteAt l 1, byteAt l 2⟩
  reserved3 := byteAt l 3
  outputLength := pair (byteAt l 4) (byteAt l 5)
  refreshPeriod := byteAt l 6
  tickPeriod := byteAt l 7
  lossTime := ⟨byteAt l 8, byteAt l 9⟩
  holdTime := ⟨byteAt l 10, byteAt l 11⟩
  acquireCount := byteAt l 12
  fallbackScene := byteAt l 13
  fallbackProfile := byteAt l 14
  sessionTimeout := byteAt l 15
  forwardEnable := byteAt l 16
  summaryLength := byteAt l 17
  summary := #v[byteAt l 18, byteAt l 19, byteAt l 20, byteAt l 21, byteAt l 22, byteAt l 23, byteAt l 24, byteAt l 25]
  alertMask := pair (byteAt l 26) (byteAt l 27)
  noticeMask := pair (byteAt l 28) (byteAt l 29)
  reserved30 := pair (byteAt l 30) (byteAt l 31)

/-- R211. -/
def MapEntry.bytes (e : MapEntry) : List Byte :=
  [e.rule ++ e.profile, e.curve ++ e.reserved ++ e.hold] ++ bytes16 e.source1 ++ bytes16 e.source2

/-- R211, read. -/
def MapEntry.ofBytes (l : List Byte) : MapEntry where
  rule := (byteAt l 0).extractLsb' 5 3
  profile := (byteAt l 0).extractLsb' 0 5
  curve := (byteAt l 1).extractLsb' 4 4
  reserved := (byteAt l 1).extractLsb' 1 3
  hold := (byteAt l 1).extractLsb' 0 1
  source1 := pair (byteAt l 2) (byteAt l 3)
  source2 := pair (byteAt l 4) (byteAt l 5)

/-- R212. -/
def ProfileRecord.bytes (r : ProfileRecord) : List Byte :=
  [r.kind, r.reserved1] ++ bytes24 r.startRate ++ bytes24 r.breakRate ++ bytes24 r.maxRate ++ bytes16 r.accelLow ++
  bytes16 r.accelHigh ++ bytes16 r.decelHigh ++ bytes16 r.decelLow ++ bytes24 r.floorRate ++ bytes16 r.reserved22

/-- R212, read. -/
def ProfileRecord.ofBytes (l : List Byte) : ProfileRecord where
  kind := byteAt l 0
  reserved1 := byteAt l 1
  startRate := triple (byteAt l 2) (byteAt l 3) (byteAt l 4)
  breakRate := triple (byteAt l 5) (byteAt l 6) (byteAt l 7)
  maxRate := triple (byteAt l 8) (byteAt l 9) (byteAt l 10)
  accelLow := pair (byteAt l 11) (byteAt l 12)
  accelHigh := pair (byteAt l 13) (byteAt l 14)
  decelHigh := pair (byteAt l 15) (byteAt l 16)
  decelLow := pair (byteAt l 17) (byteAt l 18)
  floorRate := triple (byteAt l 19) (byteAt l 20) (byteAt l 21)
  reserved22 := pair (byteAt l 22) (byteAt l 23)

/-- R213. -/
def curveBytes (c : CurveRecord) : List Byte := bytesOfHalves c.toList

/-- R213, read. -/
def curveOfBytes (l : List Byte) : CurveRecord :=
  Table.mapFin (fun k _ => pair (byteAt l (2 * k.val)) (byteAt l (2 * k.val + 1))) (Vector.replicate 17 ())

/-- The image of a bank: CONFIG, MAP, PROFILES, CURVES, entries in index order (R151). -/
def Bank.image (b : Bank) : List Byte :=
  b.config.bytes ++ b.map.toList.flatMap MapEntry.bytes ++ b.profiles.toList.flatMap ProfileRecord.bytes ++
  b.curves.toList.flatMap curveBytes

/-! ## The default program set (R154) -/

/-- The defaults of R152, in the bytes of R210. -/
def ConfigRecord.default : ConfigRecord where
  outputStream := 0
  accepted := ⟨0, 1⟩
  reserved3 := 0
  outputLength := 384
  refreshPeriod := 25
  tickPeriod := 2
  lossTime := ⟨100, 100⟩
  holdTime := ⟨30, 30⟩
  acquireCount := 3
  fallbackScene := 0xFF
  fallbackProfile := 0
  sessionTimeout := 5
  forwardEnable := 1
  summaryLength := 8
  summary := #v[0x00, 0x01, 0x06, 0x08, 0x09, 0x0A, 0x0B, 0x0C]
  alertMask := 0
  noticeMask := 0
  reserved30 := 0

/-- Entry i: ONLY, source 1 port A slot i, nothing else (R154, R211). -/
def MapEntry.default (i : Nat) : MapEntry where
  rule := 1
  profile := 0
  curve := 0
  reserved := 0
  hold := 0
  source1 := 0x8000 + BitVec.ofNat 16 i
  source2 := 0

/-- SNAP with every number 0 (R154). -/
def ProfileRecord.default : ProfileRecord where
  kind := 0
  reserved1 := 0
  startRate := 0
  breakRate := 0
  maxRate := 0
  accelLow := 0
  accelHigh := 0
  decelHigh := 0
  decelLow := 0
  floorRate := 0
  reserved22 := 0

/-- The default points: 4096 k, and 65535 for the last (R52). -/
def defaultCurve : CurveRecord :=
  Table.mapFin (fun k _ => if k.val = 16 then 65535 else BitVec.ofNat 16 (4096 * k.val)) (Vector.replicate 17 ())

/-- The default program set (R154). -/
def Bank.default : Bank where
  config := .default
  map := Table.mapFin (fun i _ => .default i.val) (Vector.replicate Config.channels ())
  profiles := Vector.replicate 16 .default
  curves := Vector.replicate 8 defaultCurve

/-! ## Fields as the blocks read them -/

/-- The merge rules (R40). -/
inductive MergeRule where
  | noMerge | only | highest | prefer | latest
  deriving DecidableEq, Repr

/-- R211; codes 5 to 7 are unknown. -/
def MergeRule.ofCode (c : BitVec 3) : Option MergeRule :=
  match c.toNat with
  | 0 => some .noMerge
  | 1 => some .only
  | 2 => some .highest
  | 3 => some .prefer
  | 4 => some .latest
  | _ => none

/-- A source that is present: a port and a slot (R40). -/
structure Source where
  port : Port
  slot : Fin Config.channels
  deriving DecidableEq, Repr

/-- Whether a source field's presence bit is set (R211, R214). -/
def sourcePresent (f : BitVec 16) : Bool := f.getLsbD 15

/-- A source field read: bit 15 presence, bits 14 to 9 the port, bits 8 to 0 the slot; `none` when absent, or when it
names no port or no slot (R211). -/
def decodeSource (f : BitVec 16) : Option Source :=
  if sourcePresent f then
    if h : (f.extractLsb' 0 9).toNat < Config.channels then
      if f.extractLsb' 9 6 = 0 then some ⟨.a, ⟨_, h⟩⟩
      else if f.extractLsb' 9 6 = 1 then some ⟨.b, ⟨_, h⟩⟩
      else none
    else none
  else none

/-- The source fields of an entry, read. -/
def MapEntry.sources (e : MapEntry) : Option Source × Option Source :=
  (decodeSource e.source1, decodeSource e.source2)

/-- The curve's index in CURVES when an entry names one: the curve id less 1 (R150, R211, R214). -/
def MapEntry.curveIndex (e : MapEntry) : Option (Fin 8) :=
  if h : 1 ≤ e.curve.toNat ∧ e.curve.toNat ≤ 8 then some ⟨e.curve.toNat - 1, by omega⟩ else none

/-- A profile id as a block uses it; every id of a verified set is below 16 (R152, R167). -/
def profileId (n : Nat) : Fin 16 := Fin.ofNat 16 n

/-- The fallback scene, absent when the byte is 0xFF (R214); every other value of a verified set is 0 to 3. -/
def ConfigRecord.fallback (c : ConfigRecord) : Option (Fin 4) :=
  if h : c.fallbackScene.toNat < 4 then some ⟨c.fallbackScene.toNat, h⟩ else none

/-- Whether forwarding is on (R117, R210). -/
def ConfigRecord.forwards (c : ConfigRecord) : Bool := c.forwardEnable == 1

/-- The kinds of profile (R66). -/
inductive ProfileKind where
  | snap | slew | ramp
  deriving DecidableEq, Repr

/-- R212; codes 3 to 255 are unknown. -/
def ProfileKind.ofCode (c : Byte) : Option ProfileKind :=
  if c = 0 then some .snap else if c = 1 then some .slew else if c = 2 then some .ramp else none

/-! ## Tables as the table commands name them (R150) -/

def TableName.code : TableName → Byte
  | .config => 0
  | .map => 1
  | .profiles => 2
  | .curves => 3
  | .scenes => 4

def TableName.ofCode (c : Byte) : Option TableName :=
  if c = 0 then some .config
  else if c = 1 then some .map
  else if c = 2 then some .profiles
  else if c = 3 then some .curves
  else if c = 4 then some .scenes
  else none

/-- The number of entries of a table. -/
def TableName.entries : TableName → Nat
  | .config => 1
  | .map => 384
  | .profiles => 16
  | .curves => 8
  | .scenes => 1536

/-- The bytes of an entry of a table. -/
def TableName.entrySize : TableName → Nat
  | .config => 32
  | .map => 6
  | .profiles => 24
  | .curves => 34
  | .scenes => 2

/-- The most entries one request may carry. -/
def TableName.perRequest : TableName → Nat
  | .config => 1
  | .map => 32
  | .profiles => 8
  | .curves => 4
  | .scenes => 64

/-! ## Commands and their arguments (R204) -/

def Command.code : Command → Byte
  | .identify => 0x01
  | .readStatus => 0x02
  | .readChannels => 0x03
  | .readInputs => 0x04
  | .readTable => 0x05
  | .openSession => 0x10
  | .writeTable => 0x11
  | .commit => 0x12
  | .abortSession => 0x13
  | .force => 0x20
  | .release => 0x21
  | .saveScene => 0x22
  | .ackConditions => 0x30
  | .restart => 0x31

/-- The command of a code; `none` for a code the part does not know. -/
def Command.ofCode (c : Byte) : Option Command :=
  if c = 0x01 then some .identify
  else if c = 0x02 then some .readStatus
  else if c = 0x03 then some .readChannels
  else if c = 0x04 then some .readInputs
  else if c = 0x05 then some .readTable
  else if c = 0x10 then some .openSession
  else if c = 0x11 then some .writeTable
  else if c = 0x12 then some .commit
  else if c = 0x13 then some .abortSession
  else if c = 0x20 then some .force
  else if c = 0x21 then some .release
  else if c = 0x22 then some .saveScene
  else if c = 0x30 then some .ackConditions
  else if c = 0x31 then some .restart
  else none

/-- The fixed argument bytes of a command. -/
def Command.fixedBytes : Command → Nat
  | .identify => 0
  | .readStatus => 0
  | .readChannels => 3
  | .readInputs => 4
  | .readTable => 5
  | .openSession => 2
  | .writeTable => 6
  | .commit => 6
  | .abortSession => 2
  | .force => 7
  | .release => 4
  | .saveScene => 1
  | .ackConditions => 2
  | .restart => 0

/-- The receiver of a port's forward line. -/
def rxOf : Port → Receiver
  | .a => .aRx
  | .b => .bRx

/-- The port unit behind a receiver; D-return-rx has none (R11). -/
def portOf : Receiver → Option Port
  | .aRx => some .a
  | .bRx => some .b
  | .dReturnRx => none

end Sys2Proof.Machine

/-- The frame kind codes (R5, R198). -/
def Sys2Proof.Frame.levelKind : Sys2Proof.Byte := 0x01
/-- See `Frame.levelKind`. -/
def Sys2Proof.Frame.requestKind : Sys2Proof.Byte := 0x10
/-- See `Frame.levelKind`. -/
def Sys2Proof.Frame.replyKind : Sys2Proof.Byte := 0x11
/-- See `Frame.levelKind`. -/
def Sys2Proof.Frame.noticeKind : Sys2Proof.Byte := 0x12

namespace Sys2Proof.Machine

/-- The payload of a LEVEL frame (R199). -/
def levelPayload (stream sequence : Byte) (first : BitVec 16) (levels : List Level) : List Byte :=
  [stream, sequence] ++ bytes16 first ++ bytes16 (BitVec.ofNat 16 levels.length) ++ bytesOfHalves levels

/-- A LEVEL frame on the link (R199). -/
def levelFrame (f : LevelFrame) : Frame :=
  ⟨Frame.levelKind, levelPayload (f.stream.setWidth 8) f.sequence f.first f.levels⟩

/-- A REQUEST frame on the link (R200). -/
def requestFrame (h : RequestHeader) (code : Byte) (args : List Byte) : Frame :=
  ⟨Frame.requestKind, h.destination :: h.tag :: code :: h.reserved :: args⟩

/-- The largest payload length of a kind (R5). -/
def maxPayload (kind : Byte) : Nat :=
  if kind = Frame.requestKind ∨ kind = Frame.replyKind ∨ kind = Frame.noticeKind then 256 else 774

/-- The CRC-16 of a frame: over kind, length and payload (R4). -/
def frameCrc (f : Frame) : Crc16 :=
  crc16 (f.kind :: bytes16 (BitVec.ofNat 16 f.payload.length) ++ f.payload)

/-- The characters of a frame in the order they are sent (R4, R15). -/
def frameCharacters (f : Frame) : List Byte :=
  0xC3 :: f.kind :: bytes16 (BitVec.ofNat 16 f.payload.length) ++ f.payload ++ bytes16 (frameCrc f)

/-- The clock periods a frame occupies its line without the gap: 4 µs for each of its n + 6 characters (R4). -/
def frameClocks (f : Frame) : Nat := (f.payload.length + 6) * Config.characterClocks

/-- The fixed fields of a request's arguments, as carried (R204). -/
def argsReadChannels (first : BitVec 16) (count : Byte) : List Byte := bytes16 first ++ [count]
def argsReadInputs (port : Byte) (first : BitVec 16) (count : Byte) : List Byte := [port] ++ bytes16 first ++ [count]
def argsReadTable (bank table : Byte) (index : BitVec 16) (count : Byte) : List Byte :=
  [bank, table] ++ bytes16 index ++ [count]
def argsWriteTable (token : BitVec 16) (table : Byte) (index : BitVec 16) (count : Byte) : List Byte :=
  bytes16 token ++ [table] ++ bytes16 index ++ [count]
def argsCommit (token : BitVec 16) (expected : Crc32) : List Byte := bytes16 token ++ bytes32 expected
def argsForce (first count : BitVec 16) (level : Level) (profile : Byte) : List Byte :=
  bytes16 first ++ bytes16 count ++ bytes16 level ++ [profile]
def argsRelease (first count : BitVec 16) : List Byte := bytes16 first ++ bytes16 count

end Sys2Proof.Machine
end

