-- ==== Sys2Proof/Decode.lean ====
section
/-! DEFINITION. Decoding. The rows of spec/opcode_table.json give no bits, so no word spells a command; a frame that
completes at a receiver does, by its kind, its length and its payload (R5, R7, R10, R13, R128, R204). After the
decoder, the frame that carries each command. -/

namespace Sys2Proof

/-- The command that a word spells by the bits of the opcode table. No row of the table gives bits. -/
def decodeTableWord (_nbits _w : Nat) : Option Instr := none

namespace Machine

/-! ## Frames as commands -/

/-- The LEVEL checks of R10 and the fields; `none` is a FORMAT error (R199). -/
def decodeLevel (payload : List Byte) : Option LevelFrame :=
  match payload with
  | stream :: sequence :: f1 :: f0 :: c1 :: c0 :: rest =>
    let first := pair f1 f0
    let count := (pair c1 c0).toNat
    if stream.extractLsb' 4 4 ≠ 0 ∨ count = 0 ∨ rest.length ≠ 2 * count ∨ first.toNat + count > Config.channels then none
    else some ⟨stream.setWidth 4, sequence, first, halves rest⟩
  | _ => none

/-- The command of a taken REQUEST with its arguments; `none` when the payload is shorter than the command's fixed
argument fields (R10, R204). -/
def decodeCommand (h : RequestHeader) (code : Byte) (args : List Byte) : Option Instr :=
  match Command.ofCode code with
  | none => some (.badCommand h code args)
  | some .identify => some (.identify h args)
  | some .readStatus => some (.readStatus h args)
  | some .readChannels =>
    match args with
    | f1 :: f0 :: c :: extra => some (.readChannels h (pair f1 f0) c extra)
    | _ => none
  | some .readInputs =>
    match args with
    | p :: f1 :: f0 :: c :: extra => some (.readInputs h p (pair f1 f0) c extra)
    | _ => none
  | some .readTable =>
    match args with
    | b :: t :: i1 :: i0 :: c :: extra => some (.readTable h b t (pair i1 i0) c extra)
    | _ => none
  | some .openSession =>
    match args with
    | t1 :: t0 :: extra => some (.openSession h (pair t1 t0) extra)
    | _ => none
  | some .writeTable =>
    match args with
    | t1 :: t0 :: t :: i1 :: i0 :: c :: entries => some (.writeTable h (pair t1 t0) t (pair i1 i0) c entries)
    | _ => none
  | some .commit =>
    match args with
    | t1 :: t0 :: e3 :: e2 :: e1 :: e0 :: extra => some (.commit h (pair t1 t0) (quad e3 e2 e1 e0) extra)
    | _ => none
  | some .abortSession =>
    match args with
    | t1 :: t0 :: extra => some (.abortSession h (pair t1 t0) extra)
    | _ => none
  | some .force =>
    match args with
    | f1 :: f0 :: c1 :: c0 :: l1 :: l0 :: p :: extra =>
      some (.force h (pair f1 f0) (pair c1 c0) (pair l1 l0) p extra)
    | _ => none
  | some .release =>
    match args with
    | f1 :: f0 :: c1 :: c0 :: extra => some (.release h (pair f1 f0) (pair c1 c0) extra)
    | _ => none
  | some .saveScene =>
    match args with
    | id :: extra => some (.saveScene h id extra)
    | _ => none
  | some .ackConditions =>
    match args with
    | k1 :: k0 :: extra => some (.ackConditions h (pair k1 k0) extra)
    | _ => none
  | some .restart => some (.restart h args)

/-- A REQUEST payload as a command, for the node that receives it; `none` is a FORMAT error, whatever the destination
(R10, R128, R200). -/
def decodeRequest (node : Byte) (p : Port) (payload : List Byte) : Option Instr :=
  match payload with
  | destination :: tag :: code :: reserved :: args =>
    let h : RequestHeader := ⟨p, destination, tag, reserved⟩
    match decodeCommand h code args with
    | none => none
    | some i => if destination = node ∨ destination = 0 then some i else some (.requestNotTaken h code args)
  | _ => none

/-- An answer, or a FORMAT error. -/
def orFormat (i : Option Instr) : Except DetectedError Instr :=
  match i with
  | some i => .ok i
  | none => .error .format

/-- A frame whose CRC check passed at a receiver, as the command it is, or the receive error it is (R7, R10, R13). -/
def decodeFrame (node : Byte) (rx : Receiver) (f : Frame) : Except DetectedError Instr :=
  if f.payload.length > maxPayload f.kind then .error .length
  else
    match rx with
    | .dReturnRx => .ok (.relayFrame f)
    | .aRx =>
      if f.kind = Frame.levelKind then orFormat ((decodeLevel f.payload).map .levelFrameA)
      else if f.kind = Frame.requestKind then orFormat (decodeRequest node .a f.payload)
      else .ok (.forwardFrame f)
    | .bRx =>
      if f.kind = Frame.levelKind then orFormat ((decodeLevel f.payload).map .levelFrameB)
      else if f.kind = Frame.requestKind then orFormat (decodeRequest node .b f.payload)
      else .ok (.bFrameDiscarded f)

/-! ## Commands as frames -/

/-- The header, code and argument bytes of a request command (R200, R204). -/
def requestParts : Instr → Option (RequestHeader × Byte × List Byte)
  | .requestNotTaken h code args => some (h, code, args)
  | .badCommand h code args => some (h, code, args)
  | .identify h extra => some (h, Command.identify.code, extra)
  | .readStatus h extra => some (h, Command.readStatus.code, extra)
  | .readChannels h first count extra => some (h, Command.readChannels.code, argsReadChannels first count ++ extra)
  | .readInputs h port first count extra => some (h, Command.readInputs.code, argsReadInputs port first count ++ extra)
  | .readTable h bank table index count extra =>
    some (h, Command.readTable.code, argsReadTable bank table index count ++ extra)
  | .openSession h token extra => some (h, Command.openSession.code, bytes16 token ++ extra)
  | .writeTable h token table index count entries =>
    some (h, Command.writeTable.code, argsWriteTable token table index count ++ entries)
  | .commit h token expected extra => some (h, Command.commit.code, argsCommit token expected ++ extra)
  | .abortSession h token extra => some (h, Command.abortSession.code, bytes16 token ++ extra)
  | .force h first count level profile extra =>
    some (h, Command.force.code, argsForce first count level profile ++ extra)
  | .release h first count extra => some (h, Command.release.code, argsRelease first count ++ extra)
  | .saveScene h scene extra => some (h, Command.saveScene.code, scene :: extra)
  | .ackConditions h kinds extra => some (h, Command.ackConditions.code, bytes16 kinds ++ extra)
  | .restart h extra => some (h, Command.restart.code, extra)
  | .hardReset | .resetRelease _ _ _ _ | .pauseAssert | .pauseRelease | .interFrameIdle _ | .truncated _
  | .receiveError _ _ | .levelFrameA _ | .levelFrameB _ | .forwardFrame _ | .relayFrame _ | .fadeTick | .refreshExpiry
  | .lossExpiry _ | .holdExpiry _ | .sessionExpiry | .verificationComplete | .copyComplete | .transmitComplete _
  | .gapEnd _ | .characterReceived _ _ | .lineReturnHigh _ | .bFrameDiscarded _ => none

/-- The frame that carries a command, and the receiver it completes at; `none` for a command that is no frame. -/
def encodeFrame (i : Instr) : Option (Receiver × Frame) :=
  match i with
  | .levelFrameA f => some (.aRx, levelFrame f)
  | .levelFrameB f => some (.bRx, levelFrame f)
  | .forwardFrame f => some (.aRx, f)
  | .relayFrame f => some (.dReturnRx, f)
  | .bFrameDiscarded f => some (.bRx, f)
  | .requestNotTaken _ _ _ | .badCommand _ _ _ | .identify _ _ | .readStatus _ _ | .readChannels _ _ _ _
  | .readInputs _ _ _ _ _ | .readTable _ _ _ _ _ _ | .openSession _ _ _ | .writeTable _ _ _ _ _ _ | .commit _ _ _ _
  | .abortSession _ _ _ | .force _ _ _ _ _ _ | .release _ _ _ _ | .saveScene _ _ _ | .ackConditions _ _ _
  | .restart _ _ => (requestParts i).map fun x => (rxOf x.1.port, requestFrame x.1 x.2.1 x.2.2)
  | .hardReset | .resetRelease _ _ _ _ | .pauseAssert | .pauseRelease | .interFrameIdle _ | .truncated _
  | .receiveError _ _ | .fadeTick | .refreshExpiry | .lossExpiry _ | .holdExpiry _ | .sessionExpiry
  | .verificationComplete | .copyComplete | .transmitComplete _ | .gapEnd _ | .characterReceived _ _
  | .lineReturnHigh _ => none

end Machine

end Sys2Proof
end

