-- ==== Sys2Proof/Machine/State.lean ====
section
/-! DEFINITION. The state of the part, plain data, block by block (00_scope, section 3.1), and its values after reset.
INVENTORY.md lists every field with the rule that names it. Times are instants counted in periods of the 20 MHz
clock. -/

namespace Sys2Proof.Machine

/-- Why a command would stop the machine with a fault. No behaviour of the part does, so there is no reason: every
command of the table ends in a next state. -/
inductive Fault where
  deriving DecidableEq, Repr

/-- Why a command would have no meaning. -/
inductive Refusal where
  /-- Raised only by an arm of `exec` whose command has no meaning yet (none is left). Safe: the machine stops. -/
  | notModelled (mnemonic : String)
  deriving DecidableEq, Repr

/-! ## Links (chapter 1) -/

/-- The kinds of receive error a receiver records (R12). -/
inductive ErrorKind where
  | character | truncated | length | crc | format
  deriving DecidableEq, Repr

/-- The states of a receiver's frame logic (section 1.3). -/
inductive RxPhase where
  | settling | hunting | receiving
  deriving DecidableEq, Repr

/-- A receiver: its frame logic, its character assembler's wait for a high line, and its idle measurement. -/
structure Rx where
  phase : RxPhase
  /-- The frame buffer: kind, length and payload bytes in the order received (R7). -/
  buffer : List Byte
  /-- The running CRC (R6, R7). -/
  crc : Crc16
  /-- Payload characters still expected, once the length is known (R7). -/
  expected : Option Nat
  /-- The first CRC character, once taken (R7). -/
  crcFirst : Option Byte
  lastError : Option ErrorKind
  /-- Waiting for the line to be high before the next start bit is looked for (R2). -/
  awaitHigh : Bool
  /-- The instant the idle measurement started; `none` while no measurement runs (R3). -/
  idleSince : Option Nat
  /-- The earliest instant at which the leading edge of the next start bit can lie (R1, R2): the model's own field, by
  which the characters and the idles of one line keep to real time (log entry 11). -/
  edgeFrom : Nat
  deriving DecidableEq, Repr

/-- One value for each receiver. -/
structure PerRx (α : Type) where
  a : α
  b : α
  d : α
  deriving DecidableEq, Repr

def PerRx.get {α : Type} (x : PerRx α) : Receiver → α
  | .aRx => x.a
  | .bRx => x.b
  | .dReturnRx => x.d

def PerRx.set {α : Type} (x : PerRx α) (r : Receiver) (v : α) : PerRx α :=
  match r with
  | .aRx => { x with a := v }
  | .bRx => { x with b := v }
  | .dReturnRx => { x with d := v }

/-- A transmitter (section 1.4): FREE; SENDING a frame whose last character ends at an instant; or GAP until an
instant, which is absent while RESET is asserted (R17). -/
inductive Tx where
  | free
  | sending (frame : Frame) (doneAt : Nat)
  | gap (endAt : Option Nat)
  deriving DecidableEq, Repr

/-- One value for each transmitter. -/
structure PerTx (α : Type) where
  d : α
  a : α
  b : α
  deriving DecidableEq, Repr

def PerTx.get {α : Type} (x : PerTx α) : Transmitter → α
  | .dTx => x.d
  | .aReturnTx => x.a
  | .bReturnTx => x.b

def PerTx.set {α : Type} (x : PerTx α) (t : Transmitter) (v : α) : PerTx α :=
  match t with
  | .dTx => { x with d := v }
  | .aReturnTx => { x with a := v }
  | .bReturnTx => { x with b := v }

/-! ## Port units (chapter 2) -/

/-- The port states (section 2.4). -/
inductive PortState where
  | silent | acquiring | live | holding | released
  deriving DecidableEq, Repr

/-- One slot of a slot store (section 2.2). -/
structure Slot where
  level : Level
  valid : Bool
  deriving DecidableEq, Repr

/-- A port unit (chapter 2). -/
structure PortUnit where
  state : PortState
  acquired : Nat
  /-- The loss timer: stopped, or the instant it expires (R24). -/
  lossAt : Option Nat
  /-- The hold timer: stopped, or the instant it expires (R24). -/
  holdAt : Option Nat
  slots : Vector Slot Config.channels
  lastSequence : Byte
  deriving DecidableEq, Repr

/-! ## Target resolver (chapters 3 and 5) -/

/-- Which step of resolution produced a target (chapter 3). -/
inductive SourceKind where
  | park | live | held | scene
  deriving DecidableEq, Repr

/-- The merge owner (R47). -/
inductive MergeOwner where
  | nobody | source1 | source2
  deriving DecidableEq, Repr

/-- A channel's target record (chapter 3). -/
structure TargetRecord where
  level : Level
  profile : Fin 16
  kind : SourceKind
  owner : MergeOwner
  deriving DecidableEq, Repr

/-- A channel's park record (R91). -/
structure ParkRecord where
  parked : Bool
  level : Level
  profile : Option (Fin 16)
  deriving DecidableEq, Repr

/-! ## Fade engine (chapter 4) -/

inductive Direction where
  | up | down
  deriving DecidableEq, Repr

inductive Phase where
  | idle | moving | reversing
  deriving DecidableEq, Repr

/-- A channel's fade context (chapter 4); position, rate and aimed target are whole numbers formed exactly (R65). -/
structure FadeContext where
  position : Nat
  rate : Nat
  direction : Direction
  phase : Phase
  aim : Nat
  profile : Fin 16
  deriving DecidableEq, Repr

/-! ## Output generator (chapter 6) -/

/-- The output frame (chapter 6). -/
inductive OutputFrame where
  | empty
  | waiting (frame : Frame)
  | sending (frame : Frame)
  deriving DecidableEq, Repr

/-! ## Management unit (chapter 7) -/

/-- The result codes (R135). -/
inductive Result where
  | ok | accepted | busy | locked | noSession | tooLate | badCommand | badArgument
  deriving DecidableEq, Repr

/-- The condition kinds, in the order of their numbers (R182). -/
inductive Condition where
  | lossA | lossB | releaseA | releaseB | restoreA | restoreB | frameError | streamClash
  | fallback | sessionExpired | commitDone | commitFailed | replyOverflow | forwardDrop | relayDrop | paused
  deriving DecidableEq, Repr

/-- A reply payload (R125). -/
structure Reply where
  node : Byte
  tag : Byte
  command : Byte
  result : Result
  summary : Byte
  data : List Byte
  deriving DecidableEq, Repr

/-- What an entry of the reply queue carries: a reply (R125) or a notice (R126). -/
inductive Message where
  | reply (r : Reply)
  | notice (node : Byte) (kind : Condition) (summary : Byte)
  deriving DecidableEq, Repr

/-- The state of a reply-queue entry (R136). -/
inductive EntryState where
  | waiting | sending
  deriving DecidableEq, Repr

/-- An entry of the reply queue (R136). -/
structure QueueEntry where
  message : Message
  destination : Port
  state : EntryState
  deriving DecidableEq, Repr

/-- A replay record that is not empty (R131). -/
structure ReplayRecord where
  tag : Byte
  command : Byte
  reply : Reply
  deriving DecidableEq, Repr

/-- The return preference of A-return-tx (R140). -/
inductive Preference where
  | replies | relay
  deriving DecidableEq, Repr

/-! ## Session controller (chapter 8) -/

/-- The two banks (R150). -/
inductive BankId where
  | bank0 | bank1
  deriving DecidableEq, Repr

/-- The other bank. -/
def BankId.other : BankId → BankId
  | .bank0 => .bank1
  | .bank1 => .bank0

/-- Both banks. -/
structure Banks where
  bank0 : Bank
  bank1 : Bank
  deriving DecidableEq, Repr

def Banks.get (x : Banks) : BankId → Bank
  | .bank0 => x.bank0
  | .bank1 => x.bank1

def Banks.set (x : Banks) (i : BankId) (v : Bank) : Banks :=
  match i with
  | .bank0 => { x with bank0 := v }
  | .bank1 => { x with bank1 := v }

/-- A session's owner (R155). -/
structure SessionOwner where
  port : Port
  token : BitVec 16
  deriving DecidableEq, Repr

/-- The session state with what goes with it: the owner in OPEN, VERIFYING and ARMED; the inactivity timer's expiry in
OPEN; the committed checksum in VERIFYING and ARMED; the instant the work began in VERIFYING and COPYING (chapter 8,
section 8.4). -/
inductive Session where
  | noSession
  | opened (owner : SessionOwner) (expiresAt : Nat)
  | verifying (owner : SessionOwner) (committed : Crc32) (since : Nat)
  | armed (owner : SessionOwner) (committed : Crc32)
  | copying (since : Nat)
  deriving DecidableEq, Repr

/-- The write pointer (R159). -/
structure WritePointer where
  table : TableName
  index : Nat
  deriving DecidableEq, Repr

/-- The reasons a verification fails (R165 to R168). -/
inductive FailureReason where
  | checksum | stream | outputLength | refresh | tick | lossTime | acquire | fallbackScene | fallbackProfile
  | sessionTimeout | summaryList | reserved | mergeRule | sources | source | curve | profile | kind | maxRate
  | floorRate | startRate | breakRate | accel | decel
  deriving DecidableEq, Repr

/-- A verification failure: its reason, and the failing entry, absent for CHECKSUM (R165). -/
structure Failure where
  reason : FailureReason
  entry : Option WritePointer
  deriving DecidableEq, Repr

/-- The last commit outcome (R181). -/
inductive CommitOutcome where
  | never
  | done
  | failed (failure : Failure)
  deriving DecidableEq, Repr

/-! ## The state -/

/-- The state of the part. -/
structure State where
  /-- The instant reached, in clock periods (the model's own time base, log entry 1). -/
  now : Nat
  /-- How many free choices of order were made (the model's own, log entry 3). -/
  choices : Nat
  /-- Whether RESET is asserted. -/
  inReset : Bool
  rx : PerRx Rx
  tx : PerTx Tx
  ports : PerPort PortUnit
  targets : Vector TargetRecord Config.channels
  parks : Vector ParkRecord Config.channels
  fades : Vector FadeContext Config.channels
  /-- The fade tick timer: stopped, or the instant it expires (R68). -/
  tickAt : Option Nat
  scenes : Vector (Vector Level Config.channels) 4
  /-- The refresh timer: stopped, or the instant it expires (R107). -/
  refreshAt : Option Nat
  output : OutputFrame
  nextSequence : Byte
  missed : Nat
  /-- The forward FIFO, oldest first (R116). -/
  forward : List Frame
  /-- The relay FIFO, oldest first (R118). -/
  relay : List Frame
  node : Byte
  /-- The reply queue, oldest first (R136). -/
  queue : List QueueEntry
  replay : PerPort (Option ReplayRecord)
  preference : Preference
  banks : Banks
  active : BankId
  checksum : Crc32
  session : Session
  pointer : WritePointer
  outcome : CommitOutcome
  latched : KindSet
  /-- The pending-notice set (R190). -/
  pendingNotices : KindSet
  /-- The PAUSE state: asserted or released (R184). -/
  pause : Bool
  /-- Whether ALERT is driven low (R187). -/
  alert : Bool
  /-- The commands that wait, first in, first out. -/
  pending : List Instr
  deriving DecidableEq, Repr

/-! ## Values after reset -/

/-- A receiver at the release of RESET with its line high (R14). -/
def Rx.reset (now : Nat) : Rx where
  phase := .settling
  buffer := []
  crc := 0xFFFF
  expected := none
  crcFirst := none
  lastError := none
  awaitHigh := false
  idleSince := some now
  edgeFrom := now

/-- A port unit after a hard reset (R37). -/
def PortUnit.reset : PortUnit where
  state := .silent
  acquired := 0
  lossAt := none
  holdAt := none
  slots := Vector.replicate Config.channels ⟨0, false⟩
  lastSequence := 0

/-- A target record after a hard reset (R62). -/
def TargetRecord.reset : TargetRecord := ⟨0, 0, .held, .nobody⟩

/-- A park record after a hard reset (R91). -/
def ParkRecord.reset : ParkRecord := ⟨false, 0, none⟩

/-- A fade context after a hard reset (R88). -/
def FadeContext.reset : FadeContext := ⟨0, 0, .up, .idle, 0, 0⟩

/-- The part right after the release of RESET (R14, R17, R37, R62, R88, R91, R96, R120, R148, R179, R194), at instant
0, with its lines idle high, PAUSE released and all ADDR straps low, which read as node 63 (R127; log entry 2). -/
def State.reset : State where
  now := 0
  choices := 0
  inReset := false
  rx := ⟨.reset 0, .reset 0, .reset 0⟩
  tx := ⟨.gap (some Config.gapClocks), .gap (some Config.gapClocks), .gap (some Config.gapClocks)⟩
  ports := ⟨.reset, .reset⟩
  targets := Vector.replicate Config.channels .reset
  parks := Vector.replicate Config.channels .reset
  fades := Vector.replicate Config.channels .reset
  tickAt := some (2 * Config.tickUnit)
  scenes := Vector.replicate 4 (Vector.replicate Config.channels 0)
  refreshAt := some (25 * Config.msClocks)
  output := .empty
  nextSequence := 0
  missed := 0
  forward := []
  relay := []
  node := 63
  queue := []
  replay := ⟨none, none⟩
  preference := .replies
  banks := ⟨.default, .default⟩
  active := .bank0
  checksum := crc32 Bank.default.image
  session := .noSession
  pointer := ⟨.config, 0⟩
  outcome := .never
  latched := 0
  pendingNotices := 0
  pause := false
  alert := false
  pending := []

end Sys2Proof.Machine
end

