-- ==== Sys2Proof/Machine/Flags.lean ====
section
/-! DEFINITION. The condition flags: sets of condition kinds (R182, R197), the summary byte (R186) and ALERT (R187);
and the reads and single-field writes of the state that every block uses. -/

namespace Sys2Proof.Machine

/-- The bank every block reads (R150). -/
def State.activeBank (s : State) : Bank := s.banks.get s.active

/-- The bank a load session writes (R150). -/
def State.shadowBank (s : State) : Bank := s.banks.get s.active.other

/-- The configuration record in force (R152). -/
def State.config (s : State) : ConfigRecord := s.activeBank.config

def State.setRx (s : State) (r : Receiver) (v : Rx) : State := { s with rx := s.rx.set r v }

def State.setTx (s : State) (t : Transmitter) (v : Tx) : State := { s with tx := s.tx.set t v }

def State.setPort (s : State) (p : Port) (v : PortUnit) : State := { s with ports := s.ports.set p v }

def State.setReplay (s : State) (p : Port) (v : Option ReplayRecord) : State := { s with replay := s.replay.set p v }

/-- Time has reached an instant: it never goes back (log entry 1). -/
def State.reach (s : State) (t : Nat) : State := { s with now := max s.now t }

/-! ## Condition kinds and their sets -/

/-- The kinds in the order of their numbers (R182). -/
def Condition.all : List Condition :=
  [.lossA, .lossB, .releaseA, .releaseB, .restoreA, .restoreB, .frameError, .streamClash,
    .fallback, .sessionExpired, .commitDone, .commitFailed, .replyOverflow, .forwardDrop, .relayDrop, .paused]

/-- The number of a kind (R182). -/
def Condition.number : Condition → Nat
  | .lossA => 0
  | .lossB => 1
  | .releaseA => 2
  | .releaseB => 3
  | .restoreA => 4
  | .restoreB => 5
  | .frameError => 6
  | .streamClash => 7
  | .fallback => 8
  | .sessionExpired => 9
  | .commitDone => 10
  | .commitFailed => 11
  | .replyOverflow => 12
  | .forwardDrop => 13
  | .relayDrop => 14
  | .paused => 15

/-- LOSS_x (section 2). -/
def Condition.loss : Port → Condition
  | .a => .lossA
  | .b => .lossB

/-- RELEASE_x (section 2). -/
def Condition.releaseOf : Port → Condition
  | .a => .releaseA
  | .b => .releaseB

/-- RESTORE_x (section 2). -/
def Condition.restore : Port → Condition
  | .a => .restoreA
  | .b => .restoreB

/-- Whether a kind is in a set (R197). -/
def hasKind (set : KindSet) (k : Condition) : Bool := set.getLsbD k.number

/-- A set with a kind added. -/
def addKind (set : KindSet) (k : Condition) : KindSet := set ||| 1#16 <<< k.number

/-- A set with the kinds of another removed. -/
def removeKinds (set kinds : KindSet) : KindSet := set &&& ~~~ kinds

/-! ## Summary byte and ALERT -/

/-- Bit i of the summary byte: whether the kind of entry i of the summary selection is latched; 0 beyond the end of
the list (R186). -/
def summaryBit (c : ConfigRecord) (latched : KindSet) (i : Fin 8) : Bool :=
  i.val < c.summaryLength.toNat && latched.getLsbD c.summary[i].toNat

/-- The summary byte as it stands (R186). -/
def State.summaryByte (s : State) : Byte :=
  BitVec.ofBoolListLE
    [summaryBit s.config s.latched 0, summaryBit s.config s.latched 1, summaryBit s.config s.latched 2,
      summaryBit s.config s.latched 3, summaryBit s.config s.latched 4, summaryBit s.config s.latched 5,
      summaryBit s.config s.latched 6, summaryBit s.config s.latched 7]

/-- ALERT evaluated afresh: driven low while a latched kind is in the alert mask (R187). -/
def State.evalAlert (s : State) : State :=
  { s with alert := s.latched &&& s.config.alertMask != 0 }

/-- The first half of a latching (R183): a kind not yet latched joins the latched set and ALERT is evaluated. The
answer's second part is whether a notice is to be offered for the kind. -/
def latchFlag (k : Condition) (s : State) : State × Bool :=
  if hasKind s.latched k then (s, false)
  else ({ s with latched := addKind s.latched k }.evalAlert, hasKind s.config.noticeMask k)

end Sys2Proof.Machine
end

