-- ==== Sys2Proof/Machine/Ops.lean ====
section
/-! DEFINITION. The operations that several commands share: transmitters and their arbiters (R15, R113, R139, R140),
the reply queue (R136 to R138), latchings and notices (R183, R189), the forward and relay paths (R115, R118), receive
errors (R11), and the order choices the manual leaves open. -/

namespace Sys2Proof.Machine

/-! ## Meanings -/

/-- What every command but the resets and the PAUSE edges does while RESET is asserted: nothing, since receivers
ignore their lines, transmitters and timers are stopped, and every block holds its state (R14, R17, R179; log entry
5). -/
def whenRunning (f : State → State) (s : State) : Host.Outcome State Fault Refusal :=
  if s.inReset then .next s else .next (f s)

/-! ## Codes on the link -/

/-- R205. -/
def Result.code : Result → Byte
  | .ok => 0
  | .accepted => 1
  | .busy => 2
  | .locked => 3
  | .noSession => 4
  | .tooLate => 5
  | .badCommand => 6
  | .badArgument => 7

/-- The frame of a reply (R201) or a notice (R202). -/
def Message.frame : Message → Frame
  | .reply r => ⟨Frame.replyKind, [r.node, r.tag, r.command, r.result.code, r.summary, 0] ++ r.data⟩
  | .notice node k summary => ⟨Frame.noticeKind, [node, BitVec.ofNat 8 k.number, summary]⟩

/-! ## Transmitters and their arbiters -/

/-- A transmitter takes a frame: SENDING until its last character ends (R15, R16). -/
def startTx (t : Transmitter) (f : Frame) (s : State) : State :=
  s.setTx t (.sending f (s.now + frameClocks f))

/-- The D-tx arbiter: in FREE, the waiting output frame goes before the head of the forward FIFO (R112, R113). -/
def serveD (s : State) : State :=
  match s.tx.d with
  | .free =>
    match s.output, s.forward with
    | .waiting f, _ => startTx .dTx f { s with output := .sending f }
    | _, f :: rest => startTx .dTx f { s with forward := rest }
    | _, [] => s
  | _ => s

/-- The oldest WAITING entry of a port, and the queue with that entry SENDING (R137, R138). -/
def takeOldest (p : Port) : List QueueEntry → Option (Message × List QueueEntry)
  | [] => none
  | e :: rest =>
    if e.destination = p ∧ e.state = .waiting then some (e.message, { e with state := .sending } :: rest)
    else (takeOldest p rest).map fun r => (r.1, e :: r.2)

/-- The A-return-tx arbiter: in FREE, the source that waits, or the one the return preference names when both do; the
preference then names the other source (R140). -/
def serveA (s : State) : State :=
  match s.tx.a with
  | .free =>
    match takeOldest .a s.queue, s.relay with
    | some (m, q), [] => startTx .aReturnTx m.frame { s with queue := q, preference := .relay }
    | none, f :: rest => startTx .aReturnTx f { s with relay := rest, preference := .replies }
    | some (m, q), f :: rest =>
      match s.preference with
      | .replies => startTx .aReturnTx m.frame { s with queue := q, preference := .relay }
      | .relay => startTx .aReturnTx f { s with relay := rest, preference := .replies }
    | none, [] => s
  | _ => s

/-- B-return-tx takes the oldest B entry in FREE (R139). -/
def serveB (s : State) : State :=
  match s.tx.b with
  | .free =>
    match takeOldest .b s.queue with
    | some (m, q) => startTx .bReturnTx m.frame { s with queue := q }
    | none => s
  | _ => s

/-- The transmitter of a port's return line. -/
def returnTx : Port → Transmitter
  | .a => .aReturnTx
  | .b => .bReturnTx

/-- The return transmitter of a port looks for a frame (R137). -/
def serveReturn : Port → State → State
  | .a => serveA
  | .b => serveB

/-- A transmitter looks for a frame. -/
def serve : Transmitter → State → State
  | .dTx => serveD
  | .aReturnTx => serveA
  | .bReturnTx => serveB

/-! ## Reply queue, latchings and notices -/

/-- An entry joins the tail of the reply queue WAITING and is offered to its transmitter (R136, R137). -/
def joinQueue (m : Message) (p : Port) (s : State) : State :=
  serveReturn p { s with queue := s.queue ++ [⟨m, p, .waiting⟩] }

/-- Whether an entry is a notice for a kind. -/
def QueueEntry.isNoticeOf (k : Condition) (e : QueueEntry) : Bool :=
  match e.message with
  | .notice _ k' _ => k' = k
  | .reply _ => false

/-- A notice joins the queue for A with the summary byte of this moment (R126, R186). -/
def queueNotice (k : Condition) (s : State) : State :=
  joinQueue (.notice s.node k s.summaryByte) .a s

/-- An offered notice: dropped when one for the kind is queued or pending, queued while there is room, and otherwise
pending (R189). -/
def offerNotice (k : Condition) (s : State) : State :=
  if s.queue.any (·.isNoticeOf k) || hasKind s.pendingNotices k then s
  else if s.queue.length < Config.queueCapacity then queueNotice k s
  else { s with pendingNotices := addKind s.pendingNotices k }

/-- A latching (R183). -/
def latch (k : Condition) (s : State) : State :=
  match latchFlag k s with
  | (s', true) => offerNotice k s'
  | (s', false) => s'

/-- Several latchings in order, each with its own notice (R183). -/
def latchAll : List Condition → State → State
  | [], s => s
  | k :: ks, s => latchAll ks (latch k s)

/-- The first half of several latchings in order; the answer's second part is the kinds owed a notice offer (R183). -/
def latchFlags : List Condition → State → State × List Condition
  | [], s => (s, [])
  | k :: ks, s =>
    let one := latchFlag k s
    let rest := latchFlags ks one.1
    (rest.1, if one.2 then k :: rest.2 else rest.2)

/-- Notice offers in order (R183, R195). -/
def offerNotices : List Condition → State → State
  | [], s => s
  | k :: ks, s => offerNotices ks (offerNotice k s)

/-- The lowest-numbered kind of a set (R190). -/
def lowestKind (set : KindSet) : Option Condition := Condition.all.find? (hasKind set)

/-- The lowest-numbered pending kind moves into the queue as a notice (R190). -/
def drainPending (s : State) : State :=
  match lowestKind s.pendingNotices with
  | some k => queueNotice k { s with pendingNotices := removeKinds s.pendingNotices (addKind 0 k) }
  | none => s

/-! ## Forward and relay paths -/

/-- Whether a frame handed to the forward path now is discarded with FORWARD_DROP (R115). -/
def State.forwardWillDrop (s : State) : Bool :=
  s.config.forwards && Config.fifoCapacity ≤ s.forward.length

/-- A frame is handed to the forward path (R115). -/
def forwardPath (f : Frame) (s : State) : State :=
  if s.config.forwards then
    if Config.fifoCapacity ≤ s.forward.length then latch .forwardDrop s
    else serveD { s with forward := s.forward ++ [f] }
  else s

/-- A frame is handed to the relay path (R118). -/
def relayPath (f : Frame) (s : State) : State :=
  if Config.fifoCapacity ≤ s.relay.length then latch .relayDrop s
  else serveA { s with relay := s.relay ++ [f] }

/-! ## Receivers -/

/-- A receiver in SETTLING with an empty frame buffer, its last error kind kept. -/
def Rx.settled (x : Rx) : Rx :=
  { x with phase := .settling, buffer := [], crc := 0xFFFF, expected := none, crcFirst := none }

/-- The idle measurement starts at the stop-bit sample of a good character (R3); the next start bit begins after the stop
bit at the earliest (R1). -/
def Rx.measureFrom (x : Rx) (now : Nat) : Rx :=
  { x with awaitHigh := false, idleSince := some now, edgeFrom := now + Config.halfBitClocks }

/-- The idle measurement starts as the line returns high, and the next transition is a start bit (R2, R3). -/
def Rx.lineHigh (x : Rx) (now : Nat) : Rx := { x with awaitHigh := false, idleSince := some now, edgeFrom := now }

/-- The line has been idle up to an instant, so no start bit began before it (R3). -/
def Rx.idleUntil (x : Rx) (t : Nat) : Rx := { x with edgeFrom := max x.edgeFrom t }

/-- After a bad character the receiver waits for the line to be high (R2, R3). -/
def Rx.waitHigh (x : Rx) : Rx := { x with awaitHigh := true, idleSince := none }

/-- A good frame completes: the receiver enters SETTLING and measures idle from this moment (R13, R3). -/
def settle (rx : Receiver) (s : State) : State :=
  s.setRx rx ((s.rx.get rx).settled.measureFrom s.now)

/-- A bad-frame report to a port unit: in ACQUIRING the acquire count reached returns to 0 (R23). -/
def badFrame (p : Port) (s : State) : State :=
  let u := s.ports.get p
  match u.state with
  | .acquiring => s.setPort p { u with acquired := 0 }
  | .silent | .live | .holding | .released => s

/-- The bad-frame report of a receiver; D-return-rx reports to no port unit (R11). -/
def reportBadFrame (rx : Receiver) (s : State) : State :=
  match portOf rx with
  | some p => badFrame p s
  | none => s

/-- A receive error: buffer discarded, last error kind recorded, SETTLING, FRAME_ERROR latched, bad frame reported
(R11). The idle measurement is the caller's. -/
def receiveErrorOp (rx : Receiver) (e : ErrorKind) (s : State) : State :=
  reportBadFrame rx
    (latch .frameError (s.setRx rx { (s.rx.get rx).settled with lastError := some e }))

/-- The error kind of a detected error. -/
def errorKind : DetectedError → ErrorKind
  | .character => .character
  | .length => .length
  | .crc => .crc
  | .format => .format

/-- An error detected at the stop-bit sample of a character: a bad character leaves the line awaited high, any other
was good and starts the idle measurement (R3, R11). -/
def errorAtSample (rx : Receiver) (e : DetectedError) (s : State) : State :=
  let x := s.rx.get rx
  receiveErrorOp rx (errorKind e)
    (s.setRx rx (match e with
      | .character => x.waitHigh
      | .length | .crc | .format => x.measureFrom s.now))

/-! ## Choices of order -/

/-- The next choice of order that the manual leaves open, a free value (log entry 3). -/
def State.choose (s : State) : Nat × State := (Config.choice s.choices, { s with choices := s.choices + 1 })

end Sys2Proof.Machine
end

