-- ==== Sys2Proof/Machine/Resolver.lean ====
section
/-! DEFINITION. The target resolver: contribution and merging (R42 to R46), owner moves (R47, R48), curves (R50),
resolution (R53 to R57) and the events that cause one (R58 to R60). -/

namespace Sys2Proof.Machine

/-! ## Contribution and merging -/

/-- Whether a port offers its slots: LIVE or HOLDING (R31). -/
def PortState.offers : PortState → Bool
  | .live | .holding => true
  | .silent | .acquiring | .released => false

/-- The value a source contributes (R42). -/
def contribution (ports : PerPort PortUnit) (src : Option Source) : Option Level :=
  match src with
  | none => none
  | some src =>
    let u := ports.get src.port
    if u.state.offers && u.slots[src.slot].valid then some u.slots[src.slot].level else none

/-- HIGHEST of two contributions (R44). -/
def highest : Option Level → Option Level → Option Level
  | some v1, some v2 => if v2.toNat > v1.toNat then some v2 else some v1
  | some v1, none => some v1
  | none, v2 => v2

/-- The merged value of two contributions under a rule and an owner (R43 to R46). -/
def merge (rule : MergeRule) (owner : MergeOwner) (c1 c2 : Option Level) : Option Level :=
  match rule with
  | .noMerge => none
  | .only => c1
  | .highest => highest c1 c2
  | .prefer => c1.or c2
  | .latest =>
    match owner with
    | .nobody | .source1 => c1.or c2
    | .source2 => c2.or c1

/-- The merge rule of an entry; every rule of a verified set is known (R41). -/
def MapEntry.mergeRule (e : MapEntry) : MergeRule := (MergeRule.ofCode e.rule).getD .noMerge

/-- The merged value of a channel (R43 to R46). -/
def mergedValue (ports : PerPort PortUnit) (e : MapEntry) (owner : MergeOwner) : Option Level :=
  merge e.mergeRule owner (contribution ports e.sources.1) (contribution ports e.sources.2)

/-! ## Curves -/

/-- The output of a curve: the segment k = x div 4096, and y[k] + ((y[k+1] − y[k]) × f) div 4096 with the division
truncating toward zero (R50). -/
def curveOutput (y : CurveRecord) (x : Level) : Level :=
  have hk : x.toNat / 4096 < 16 := by omega
  let k := x.toNat / 4096
  let f : Int := (x.toNat % 4096 : Nat)
  let y0 : Int := (y[k].toNat : Nat)
  let y1 : Int := (y[k + 1].toNat : Nat)
  BitVec.ofInt 16 (y0 + ((y1 - y0) * f).tdiv 4096)

/-- The merged value through the entry's curve, or itself where the curve is absent (R55). -/
def throughCurve (curves : Vector CurveRecord 8) (e : MapEntry) (v : Level) : Level :=
  match e.curveIndex with
  | some i => curveOutput curves[i] v
  | none => v

/-! ## Resolution -/

/-- The first of the four steps that applies: park, live, scene, hold (R54 to R57). `live` is the merged value through
its curve; `scene` the fallback scene's level and profile, absent for a channel that holds. -/
def firstStep (park : ParkRecord) (mapProfile : Fin 16) (live : Option Level) (scene : Option (Level × Fin 16))
    (t : TargetRecord) : TargetRecord :=
  if park.parked then { t with level := park.level, profile := park.profile.getD mapProfile, kind := .park }
  else
    match live with
    | some v => { t with level := v, profile := mapProfile, kind := .live }
    | none =>
      match scene with
      | some (v, profile) => { t with level := v, profile := profile, kind := .scene }
      | none => { t with profile := mapProfile, kind := .held }

/-- The map profile of a channel (R40). -/
def State.mapProfile (s : State) (c : Fin Config.channels) : Fin 16 := profileId s.activeBank.map[c].profile.toNat

/-- The level a channel's sources give under an owner, through its curve (R55). -/
def State.liveLevel (s : State) (c : Fin Config.channels) (owner : MergeOwner) : Option Level :=
  (mergedValue s.ports s.activeBank.map[c] owner).map (throughCurve s.activeBank.curves s.activeBank.map[c])

/-- What a channel falls back on: nothing when hold-on-loss is set or no fallback scene is named (R56, R57). -/
def State.fallbackLevel (s : State) (c : Fin Config.channels) : Option (Level × Fin 16) :=
  if s.activeBank.map[c].hold = 1 then none
  else s.config.fallback.map fun f => (s.scenes[f][c], profileId s.config.fallbackProfile.toNat)

/-- The target record that a resolution of a channel gives (R53 to R57). -/
def resolveTarget (s : State) (c : Fin Config.channels) (t : TargetRecord) : TargetRecord :=
  firstStep s.parks[c] (s.mapProfile c) (s.liveLevel c t.owner) (s.fallbackLevel c) t

/-- Whether a resolution event took a channel into SCENE from another source kind (R57). -/
def enteredScene (before after : Vector TargetRecord Config.channels) : Bool :=
  Table.anyPair (fun t t' => t.kind != .scene && t'.kind == .scene) before after

/-- One resolution event without its latching: the selected channels are resolved, each against the state as it stands
(R53). -/
def resolveQuiet (sel : Fin Config.channels → Bool) (s : State) : State :=
  { s with targets := Table.mapFin (fun c t => if sel c then resolveTarget s c t else t) s.targets }

/-- The kinds one resolution event latches: FALLBACK, once, when a channel enters SCENE (R57). -/
def resolutionLatches (s s' : State) : List Condition :=
  if enteredScene s.targets s'.targets then [.fallback] else []

/-- One resolution event: FALLBACK latches once when a channel enters SCENE (R57). -/
def resolve (sel : Fin Config.channels → Bool) (s : State) : State :=
  let s' := resolveQuiet sel s
  if enteredScene s.targets s'.targets then latch .fallback s' else s'

/-- The number of channels in SCENE (R105). -/
def State.fallbackCount (s : State) : Nat := s.targets.toList.countP (·.kind == .scene)

/-! ## Port reports -/

/-- Whether a source is on a port, with its slot in a set or the port's state changed (R58). -/
def sourceConcerned (p : Port) (changed : Fin Config.channels → Bool) (stateChanged : Bool) (src : Option Source) : Bool :=
  match src with
  | none => false
  | some src => src.port = p && (stateChanged || changed src.slot)

/-- Whether a port report causes the resolution of a channel with this entry (R58). -/
def entryConcerned (p : Port) (changed : Fin Config.channels → Bool) (stateChanged : Bool) (e : MapEntry) : Bool :=
  sourceConcerned p changed stateChanged e.sources.1 || sourceConcerned p changed stateChanged e.sources.2

/-- A report of a port unit: the change set, and whether the port state changed (R21, R58). -/
def portReport (p : Port) (changed : Fin Config.channels → Bool) (stateChanged : Bool) (s : State) : State :=
  resolve (fun c => entryConcerned p changed stateChanged s.activeBank.map[c]) s

/-- Whether a source is on a port and its slot in a set. -/
def sourceMoved (p : Port) (moved : Fin Config.channels → Bool) (src : Option Source) : Bool :=
  sourceConcerned p moved false src

/-- The owner of a LATEST channel moves to the source whose valid slot a frame changed; to source 1 where it changed
both (R47, R48). -/
def moveOwner (p : Port) (moved : Fin Config.channels → Bool) (e : MapEntry) (t : TargetRecord) : TargetRecord :=
  if e.mergeRule = .latest then
    if sourceMoved p moved e.sources.1 then { t with owner := .source1 }
    else if sourceMoved p moved e.sources.2 then { t with owner := .source2 }
    else t
  else t

/-- The owner moves of an accepted frame, for every channel (R47). -/
def moveOwners (p : Port) (moved : Fin Config.channels → Bool) (s : State) : State :=
  { s with targets := Table.mapFin (fun c t => moveOwner p moved s.activeBank.map[c] t) s.targets }

/-- Every merge owner set to none (R60, R63). -/
def clearOwners (s : State) : State :=
  { s with targets := Table.mapFin (fun _ t => { t with owner := .nobody }) s.targets }

end Sys2Proof.Machine
end

