-- ==== Sys2Proof/Machine/Fade.lean ====
section
/-! DEFINITION. The fade engine: the SNAP, SLEW and RAMP steps (R72 to R82), the fade tick (R68 to R71), and FADE_TICK. -/

namespace Sys2Proof.Machine

/-! ## Quantities of a context -/

/-- The opposite direction. -/
def Direction.flip : Direction → Direction
  | .up => .down
  | .down => .up

/-- The level of a position (R64). -/
def FadeContext.level (x : FadeContext) : Level := BitVec.ofNat 16 (x.position / 256)

/-- The distance of a channel: the magnitude of its aimed target less its position (R65). -/
def FadeContext.distance (x : FadeContext) : Nat := (x.aim - x.position) + (x.position - x.aim)

/-- The direction from the position toward the aim (R65). -/
def FadeContext.toward (x : FadeContext) : Direction := if x.position < x.aim then .up else .down

/-- The position moved by a rate toward the aim (R65). -/
def FadeContext.movedToward (x : FadeContext) (v : Nat) : Nat :=
  if x.position < x.aim then x.position + v else x.position - v

/-- Whether the aim is ahead of or at the position, as seen in the direction of the context (section 4.3). -/
def FadeContext.aheadOrAt (x : FadeContext) : Bool :=
  match x.direction with
  | .up => x.position ≤ x.aim
  | .down => x.aim ≤ x.position

/-- The channel comes to rest on its aimed target. -/
def FadeContext.arrived (x : FadeContext) : FadeContext := { x with position := x.aim, rate := 0, phase := .idle }

/-! ## SNAP and SLEW -/

/-- R72. -/
def snapStep (x : FadeContext) : FadeContext := x.arrived

/-- R73, R74. -/
def slewStep (r : ProfileRecord) (x : FadeContext) : FadeContext :=
  if x.aim = x.position then { x with rate := 0, phase := .idle }
  else if r.maxRate.toNat ≥ x.distance then { x.arrived with direction := x.toward }
  else
    { x with
      position := x.movedToward r.maxRate.toNat
      rate := r.maxRate.toNat
      direction := x.toward
      phase := .moving }

/-! ## RAMP -/

/-- The deceleration for a rate (R75). -/
def decelFor (r : ProfileRecord) (v : Nat) : Nat :=
  if v ≤ r.breakRate.toNat then r.decelLow.toNat else r.decelHigh.toNat

/-- The acceleration for a rate (R75). -/
def accelFor (r : ProfileRecord) (v : Nat) : Nat :=
  if v < r.breakRate.toNat then r.accelLow.toNat else r.accelHigh.toNat

/-- The new rate of a MOVING step at rate v and distance D: decelerate, accelerate or cruise (R77, steps 1 to 3). -/
def movingRate (r : ProfileRecord) (v D : Nat) : Nat :=
  if v * v ≥ 2 * decelFor r v * D then max (v - decelFor r v) r.floorRate.toNat
  else if v < r.maxRate.toNat then min (v + accelFor r v) r.maxRate.toNat
  else v

/-- The MOVING step (R77). -/
def movingStep (r : ProfileRecord) (x : FadeContext) : FadeContext :=
  let v := movingRate r x.rate x.distance
  if v ≥ x.distance then x.arrived
  else { x with position := x.movedToward v, rate := v, phase := .moving }

/-- The turn at the end of a braking: the direction is reversed and the movement starts at Rs (R79, R80). -/
def turned (r : ProfileRecord) (x : FadeContext) : FadeContext :=
  { x with direction := x.direction.flip, phase := .moving, rate := r.startRate.toNat }

/-- The REVERSING step, with the end of the range of positions (R79, R80). -/
def reversingStep (r : ProfileRecord) (x : FadeContext) : FadeContext :=
  let d := decelFor r x.rate
  if x.rate ≤ d then turned r x
  else
    let v := x.rate - d
    match x.direction with
    | .up =>
      if x.position + v > Config.maxPosition then turned r { x with position := Config.maxPosition }
      else { x with position := x.position + v, rate := v, phase := .reversing }
    | .down =>
      if x.position < v then turned r { x with position := 0 }
      else { x with position := x.position - v, rate := v, phase := .reversing }

/-- The RAMP step: the rate clamped to Rm, then the step of the phase (R76, R78, R81, R82). -/
def rampStep (r : ProfileRecord) (x : FadeContext) : FadeContext :=
  let x := { x with rate := min x.rate r.maxRate.toNat }
  match x.phase with
  | .idle =>
    if x.aim = x.position then { x with rate := 0 }
    else movingStep r { x with phase := .moving, direction := x.toward, rate := r.startRate.toNat }
  | .moving | .reversing =>
    if x.aheadOrAt then movingStep r { x with phase := .moving }
    else reversingStep r { x with phase := .reversing }

/-! ## The fade tick -/

/-- The step of a profile's kind (R71); every kind of a verified set is known (log entry 8). -/
def profileStep (r : ProfileRecord) (x : FadeContext) : FadeContext :=
  match ProfileKind.ofCode r.kind with
  | some .snap => snapStep x
  | some .slew => slewStep r x
  | some .ramp => rampStep r x
  | none => x

/-- One channel advanced by a tick: target, profile, aim, step (R71). -/
def advance (profiles : Vector ProfileRecord 16) (t : TargetRecord) (x : FadeContext) : FadeContext :=
  profileStep profiles[t.profile] { x with profile := t.profile, aim := t.level.toNat * 256 }

/-- Every channel advanced (R70, R71). -/
def advanceAll (s : State) : State :=
  { s with fades := Table.mapFin (fun c x => advance s.activeBank.profiles s.targets[c] x) s.fades }

/-- The interval of the fade tick timer under the active bank (R68). -/
def State.tickClocks (s : State) : Nat := s.config.tickPeriod.toNat * Config.tickUnit

/-- A fade tick: the timer restarts at once; the channels advance unless PAUSE is asserted (R68, R69, R71). -/
def fadeTickOp (s : State) : State :=
  match s.tickAt with
  | none => s
  | some t =>
    let s := { s.reach t with tickAt := some (t + s.tickClocks) }
    if s.pause then s else advanceAll s

/-- FADE_TICK (R71). -/
def execFadeTick (s : State) : Host.Outcome State Fault Refusal := whenRunning fadeTickOp s

end Sys2Proof.Machine
end

