-- ==== Sys2Proof/Machine/Ports.lean ====
section
/-! DEFINITION. The port units: acceptance and the slot store (R18 to R22), the port state machine (R25 to R30), and the
commands LEVEL_FRAME_A, LEVEL_FRAME_B, LOSS_EXPIRY and HOLD_EXPIRY. -/

namespace Sys2Proof.Machine

/-! ## Slot store -/

/-- The level a frame carries for a slot, when the slot is in its range (R20). -/
def frameLevel (f : LevelFrame) (i : Fin Config.channels) : Option Level :=
  if f.first.toNat ≤ i.val then f.levels[i.val - f.first.toNat]? else none

/-- Whether a slot belongs to a frame's change set: not valid, or valid with another level (R20). -/
def inChangeSet (slots : Vector Slot Config.channels) (f : LevelFrame) (i : Fin Config.channels) : Bool :=
  match frameLevel f i with
  | some v => !slots[i].valid || slots[i].level != v
  | none => false

/-- Whether a frame changes the level of a slot that was valid before it (R47). -/
def changesValid (slots : Vector Slot Config.channels) (f : LevelFrame) (i : Fin Config.channels) : Bool :=
  match frameLevel f i with
  | some v => slots[i].valid && slots[i].level != v
  | none => false

/-- The slot store with a frame's levels written and marked valid (R20). -/
def writeSlots (slots : Vector Slot Config.channels) (f : LevelFrame) : Vector Slot Config.channels :=
  Table.mapFin
    (fun i slot =>
      match frameLevel f i with
      | some v => ⟨v, true⟩
      | none => slot)
    slots

/-- The slot store with every valid flag cleared and the levels kept (R22). -/
def invalidate (slots : Vector Slot Config.channels) : Vector Slot Config.channels :=
  Table.mapFin (fun _ slot => { slot with valid := false }) slots

/-! ## Timers and states -/

/-- The loss time of a port in clock periods (R24). -/
def State.lossClocks (s : State) (p : Port) : Nat := (s.config.lossTime.get p).toNat * Config.lossUnit

/-- The hold time of a port in clock periods (R24). -/
def State.holdClocks (s : State) (p : Port) : Nat := (s.config.holdTime.get p).toNat * Config.holdUnit

/-- A port entering RELEASED: timers stopped, slots invalid, count 0 (R22, R28 to R30). -/
def PortUnit.released (u : PortUnit) : PortUnit :=
  { u with state := .released, acquired := 0, lossAt := none, holdAt := none, slots := invalidate u.slots }

/-- A port entering SILENT: timers stopped, slots invalid, count 0 (R22, R33, R37). -/
def PortUnit.silenced (u : PortUnit) : PortUnit :=
  { u with state := .silent, acquired := 0, lossAt := none, holdAt := none, slots := invalidate u.slots }

/-- A good-frame event (R25 to R27). `now` is the completion, `loss` the loss time; the answer's second part is whether
the port entered LIVE, at which RESTORE_x latches. -/
def goodFrameUnit (now loss acquireCount : Nat) (u : PortUnit) : PortUnit × Bool :=
  let restarted := { u with lossAt := some (now + loss) }
  match u.state with
  | .silent | .released =>
    if acquireCount = 1 then ({ restarted with state := .live, acquired := 1 }, true)
    else ({ restarted with state := .acquiring, acquired := 1 }, false)
  | .acquiring =>
    if acquireCount ≤ u.acquired + 1 then ({ restarted with state := .live, acquired := u.acquired + 1 }, true)
    else ({ restarted with acquired := u.acquired + 1 }, false)
  | .live => (restarted, false)
  | .holding => ({ restarted with state := .live, holdAt := none }, true)

/-- A good-frame event at a port (R25 to R27). -/
def goodFrame (p : Port) (s : State) : State :=
  let r := goodFrameUnit s.now (s.lossClocks p) s.config.acquireCount.toNat (s.ports.get p)
  let s' := s.setPort p r.1
  if r.2 then latch (.restore p) s' else s'

/-! ## Acceptance -/

/-- An accepted frame, taken whole: change set, slot store, sequence, good-frame event, owner moves and report (R20,
R21, R47, R58). -/
def acceptFrame (p : Port) (f : LevelFrame) (s : State) : State :=
  let u := s.ports.get p
  let s1 := goodFrame p (s.setPort p { u with slots := writeSlots u.slots f, lastSequence := f.sequence })
  portReport p (inChangeSet u.slots f) ((s1.ports.get p).state != u.state) (moveOwners p (changesValid u.slots f) s1)

/-- A LEVEL frame at port unit A: accepted, discarded as a clash, or handed to the forward path (R18). -/
def levelAtA (f : LevelFrame) (s : State) : State :=
  if f.stream.setWidth 8 = s.config.accepted.a then acceptFrame .a f s
  else if f.stream.setWidth 8 = s.config.outputStream then latch .streamClash s
  else forwardPath (levelFrame f) s

/-- A LEVEL frame at port unit B: accepted or discarded (R19). -/
def levelAtB (f : LevelFrame) (s : State) : State :=
  if f.stream.setWidth 8 = s.config.accepted.b then acceptFrame .b f s else s

/-- The receive error of a LEVEL payload with these fields, if any: too long, or failing a payload check (R7, R10). -/
def levelError (f : LevelFrame) : Option DetectedError :=
  if f.levels.length > Config.channels then some .length
  else if f.levels.length = 0 ∨ f.first.toNat + f.levels.length > Config.channels then some .format
  else none

/-- A LEVEL frame completes at A-rx (R10, R13, R18). -/
def onLevelA (f : LevelFrame) (s : State) : State :=
  match levelError f with
  | some e => errorAtSample .aRx e s
  | none => levelAtA f (settle .aRx s)

/-- A LEVEL frame completes at B-rx (R10, R13, R19). -/
def onLevelB (f : LevelFrame) (s : State) : State :=
  match levelError f with
  | some e => errorAtSample .bRx e s
  | none => levelAtB f (settle .bRx s)

/-- LEVEL_FRAME_A (R18). -/
def execLevelFrameA (f : LevelFrame) (s : State) : Host.Outcome State Fault Refusal := whenRunning (onLevelA f) s

/-- LEVEL_FRAME_B (R19). -/
def execLevelFrameB (f : LevelFrame) (s : State) : Host.Outcome State Fault Refusal := whenRunning (onLevelB f) s

/-! ## Expiries -/

/-- The report of a port whose state changed with no change set of its own (R21). -/
def stateReport (p : Port) (s : State) : State := portReport p (fun _ => false) true s

/-- A loss expiry at the instant `t` it was due (R28, R29). -/
def lossEvent (p : Port) (t : Nat) (s : State) : State :=
  let u := { s.ports.get p with lossAt := none }
  match u.state with
  | .acquiring => stateReport p (s.setPort p u.released)
  | .live =>
    if s.config.holdTime.get p = 0 then
      stateReport p (latch (.releaseOf p) (latch (.loss p) (s.setPort p u.released)))
    else
      stateReport p (latch (.loss p) (s.setPort p { u with state := .holding, holdAt := some (t + s.holdClocks p) }))
  | .silent | .holding | .released => s.setPort p u

/-- LOSS_EXPIRY (R24, R28, R29): a timer that is stopped has no expiry. -/
def lossExpiryOp (p : Port) (s : State) : State :=
  match (s.ports.get p).lossAt with
  | none => s
  | some t => lossEvent p t (s.reach t)

/-- A hold expiry (R30). -/
def holdEvent (p : Port) (s : State) : State :=
  let u := { s.ports.get p with holdAt := none }
  match u.state with
  | .holding => stateReport p (latch (.releaseOf p) (s.setPort p u.released))
  | .silent | .acquiring | .live | .released => s.setPort p u

/-- HOLD_EXPIRY (R24, R30): a timer that is stopped has no expiry. -/
def holdExpiryOp (p : Port) (s : State) : State :=
  match (s.ports.get p).holdAt with
  | none => s
  | some t => holdEvent p (s.reach t)

/-- LOSS_EXPIRY (R29). -/
def execLossExpiry (p : Port) (s : State) : Host.Outcome State Fault Refusal := whenRunning (lossExpiryOp p) s

/-- HOLD_EXPIRY (R30). -/
def execHoldExpiry (p : Port) (s : State) : Host.Outcome State Fault Refusal := whenRunning (holdExpiryOp p) s

end Sys2Proof.Machine
end

