-- ==== Sys2Proof/Machine/Verify.lean ====
section
/-! DEFINITION. Verification of a bank: the checks of each entry in their order (R166 to R168, R215) and the first failure
in table and index order, the checksum last (R165). -/

namespace Sys2Proof.Machine

/-- The first check of a list that failed, with the reason of that check. -/
def firstFailed : List (Bool × FailureReason) → Option FailureReason
  | [] => none
  | (failed, reason) :: rest => if failed then some reason else firstFailed rest

/-- Whether one of the kinds of the summary list lies outside 0 to 15 (R166). -/
def badSummaryKind (c : ConfigRecord) : Bool :=
  (c.summary.toList.take c.summaryLength.toNat).any fun k => k.toNat > 15

/-- Whether a summary entry beyond the list is not 0 (R215). -/
def summaryReserved (c : ConfigRecord) : Bool :=
  (c.summary.toList.drop c.summaryLength.toNat).any fun k => k != 0

/-- The checks of the CONFIG entry (R166). -/
def checkConfig (c : ConfigRecord) : Option FailureReason :=
  firstFailed
    [ (c.outputStream.toNat > 15 || c.accepted.a.toNat > 15 || c.accepted.b.toNat > 15, .stream),
      (c.outputLength.toNat < 1 || c.outputLength.toNat > 384, .outputLength),
      (c.refreshPeriod.toNat < 1 || c.refreshPeriod.toNat > 100, .refresh),
      (c.tickPeriod.toNat < 1 || c.tickPeriod.toNat > 16, .tick),
      (c.lossTime.a == 0 || c.lossTime.b == 0, .lossTime),
      (c.acquireCount.toNat < 1 || c.acquireCount.toNat > 8, .acquire),
      (c.fallbackScene != 0xFF && c.fallbackScene.toNat > 3, .fallbackScene),
      (c.fallbackProfile.toNat > 15, .fallbackProfile),
      (c.sessionTimeout.toNat < 1 || c.sessionTimeout.toNat > 60, .sessionTimeout),
      (c.summaryLength.toNat > 8 || badSummaryKind c, .summaryList),
      (c.reserved3 != 0 || c.reserved30 != 0 || c.forwardEnable.toNat > 1 || summaryReserved c, .reserved) ]

/-- The presence of the two sources that a merge rule asks (R41). -/
def sourcesFor : MergeRule → Bool × Bool
  | .noMerge => (false, false)
  | .only => (true, false)
  | .highest | .prefer | .latest => (true, true)

/-- Whether a present source names no port or no slot (R167). -/
def badSource (f : BitVec 16) : Bool := sourcePresent f && (decodeSource f).isNone

/-- The checks of a MAP entry (R167). -/
def checkMap (e : MapEntry) : Option FailureReason :=
  match MergeRule.ofCode e.rule with
  | none => some .mergeRule
  | some rule =>
    firstFailed
      [ ((sourcePresent e.source1, sourcePresent e.source2) != sourcesFor rule, .sources),
        (badSource e.source1 || badSource e.source2, .source),
        (e.curve.toNat > 8, .curve),
        (e.profile.toNat > 15, .profile),
        (e.reserved != 0, .reserved) ]

/-- The checks of a PROFILES record (R168). -/
def checkProfile (r : ProfileRecord) : Option FailureReason :=
  match ProfileKind.ofCode r.kind with
  | none => some .kind
  | some kind =>
    let ramp := kind == .ramp
    firstFailed
      [ (kind != .snap && r.maxRate == 0, .maxRate),
        (ramp && (r.floorRate == 0 || r.floorRate.toNat > r.maxRate.toNat), .floorRate),
        (ramp && r.startRate.toNat > r.maxRate.toNat, .startRate),
        (ramp && r.breakRate.toNat > r.maxRate.toNat, .breakRate),
        (ramp && (r.accelLow == 0 || r.accelHigh == 0), .accel),
        (ramp && (r.decelLow == 0 || r.decelHigh == 0), .decel),
        (r.reserved1 != 0 || r.reserved22 != 0, .reserved) ]

/-- The first failing entry of a bank; CURVES entries undergo no checks (R51, R165). -/
def entryFailure (b : Bank) : Option Failure :=
  match checkConfig b.config with
  | some reason => some ⟨reason, some ⟨.config, 0⟩⟩
  | none =>
    match Table.findFrom checkMap 0 b.map.toList with
    | some (i, reason) => some ⟨reason, some ⟨.map, i⟩⟩
    | none =>
      match Table.findFrom checkProfile 0 b.profiles.toList with
      | some (i, reason) => some ⟨reason, some ⟨.profiles, i⟩⟩
      | none => none

/-- The failure verification finds in a bank against a committed checksum; none on success (R165). -/
def verify (b : Bank) (committed : Crc32) : Option Failure :=
  match entryFailure b with
  | some f => some f
  | none => if crc32 b.image = committed then none else some ⟨.checksum, none⟩

end Sys2Proof.Machine
end

