-- ==== Sys2Proof/Machine/Session.lean ====
section
/-! DEFINITION. The session controller: the inactivity timer (R161, R162), verification (R165, R169, R170), the
changeover (R171, with R33, R60, R192) and the bank copy (R173, R174); the output generator, which tells it of every
snapshot (R107 to R111); and the commands SESSION_EXPIRY, VERIFICATION_COMPLETE, COPY_COMPLETE and REFRESH_EXPIRY. -/

namespace Sys2Proof.Machine

/-! ## Timer, verification and copy -/

/-- The instant an inactivity timer started now expires (R161). -/
def State.sessionExpiry (s : State) : Nat := s.now + s.config.sessionTimeout.toNat * Config.sessionUnit

/-- The session ends and a bank copy starts (R162, R173, R175). -/
def startCopy (s : State) : State := { s with session := .copying s.now }

/-- SESSION_EXPIRY (R162): in OPEN alone the timer runs. -/
def sessionExpiryOp (s : State) : State :=
  match s.session with
  | .opened _ t => latch .sessionExpired (startCopy (s.reach t))
  | .noSession | .verifying _ _ _ | .armed _ _ | .copying _ => s

/-- VERIFICATION_COMPLETE (R163, R165, R169, R170): it is later than the acceptance. -/
def verificationCompleteOp (s : State) : State :=
  match s.session with
  | .verifying owner committed since =>
    let s := s.reach (since + 1)
    match verify s.shadowBank committed with
    | none => { s with session := .armed owner committed }
    | some f =>
      latch .commitFailed { s with session := .opened owner s.sessionExpiry, outcome := .failed f }
  | .noSession | .opened _ _ | .armed _ _ | .copying _ => s

/-- COPY_COMPLETE (R173, R174): it is later than the start. -/
def copyCompleteOp (s : State) : State :=
  match s.session with
  | .copying since =>
    { s.reach (since + 1) with
      banks := s.banks.set s.active.other s.activeBank
      session := .noSession }
  | .noSession | .opened _ _ | .verifying _ _ _ | .armed _ _ => s

/-- SESSION_EXPIRY (R162). -/
def execSessionExpiry (s : State) : Host.Outcome State Fault Refusal := whenRunning sessionExpiryOp s

/-- VERIFICATION_COMPLETE (R165). -/
def execVerificationComplete (s : State) : Host.Outcome State Fault Refusal := whenRunning verificationCompleteOp s

/-- COPY_COMPLETE (R174). -/
def execCopyComplete (s : State) : Host.Outcome State Fault Refusal := whenRunning copyCompleteOp s

/-! ## Changeover -/

/-- A port whose accepted stream the changeover altered goes SILENT (R33). -/
def silenceIfAltered (old : ConfigRecord) (p : Port) (s : State) : State :=
  if old.accepted.get p = s.config.accepted.get p then s
  else s.setPort p (s.ports.get p).silenced

/-- The banks are exchanged and the session ends (R171, steps 1 to 4 and 6); ALERT is evaluated under the new mask
(R192). -/
def exchangeBanks (committed : Crc32) (s : State) : State :=
  { s with
    active := s.active.other
    checksum := committed
    outcome := .done
    session := .copying s.now }.evalAlert

/-- A fade tick due at the instant of a changeover may fall between the exchange of the banks and the resolutions, and then
finds the old target records with the profiles of the new bank; which it does, a free choice says (R61, R87; log entry
9). -/
def tickWithin (s : State) : State :=
  match s.tickAt with
  | none => s
  | some t =>
    if s.now < t then s
    else
      let (n, s) := s.choose
      if n % 2 = 0 then s else fadeTickOp s

/-- The changeover (R171): the exchange, COMMIT_DONE, a tick that falls within it, then the effects at the ports and the
resolver (R33, R60). -/
def changeover (committed : Crc32) (s : State) : State :=
  let s1 := tickWithin (latch .commitDone (exchangeBanks committed s))
  let s2 := silenceIfAltered s.config .b (silenceIfAltered s.config .a s1)
  resolve (fun _ => true) (clearOwners s2)

/-- The session controller is told of an output snapshot (R111, R171). -/
def toldOfSnapshot (s : State) : State :=
  match s.session with
  | .armed _ committed => changeover committed s
  | .noSession | .opened _ _ | .verifying _ _ _ | .copying _ => s

/-! ## Output generator -/

/-- The levels the output frame carries: each channel's below the output length (R109). -/
def State.outputLevels (s : State) : List Level :=
  (s.fades.toList.take s.config.outputLength.toNat).map FadeContext.level

/-- The output LEVEL frame (R109). -/
def State.outputSnapshot (s : State) : Frame :=
  ⟨Frame.levelKind, levelPayload s.config.outputStream s.nextSequence 0 s.outputLevels⟩

/-- The output snapshot: the frame is built and offered to D-tx, its sequence number is consumed, and the session
controller is told (R109 to R111). -/
def takeSnapshot (s : State) : State :=
  toldOfSnapshot (serveD { s with output := .waiting s.outputSnapshot, nextSequence := s.nextSequence + 1 })

/-- A missed refresh (R108). -/
def missRefresh (s : State) : State := { s with missed := min (s.missed + 1) Config.maxMissed }

/-- The interval of the refresh timer under the active bank (R107). -/
def State.refreshClocks (s : State) : Nat := s.config.refreshPeriod.toNat * Config.msClocks

/-- The refresh timer restarts at its expiry for the period of the bank then active (R107). -/
def restartRefresh (t : Nat) (s : State) : State := { s with refreshAt := some (t + s.refreshClocks) }

/-- REFRESH_EXPIRY (R107, R108). -/
def refreshExpiryOp (s : State) : State :=
  match s.refreshAt with
  | none => s
  | some t =>
    let s := s.reach t
    restartRefresh t
      (match s.output with
        | .empty => takeSnapshot s
        | .waiting _ | .sending _ => missRefresh s)

/-- REFRESH_EXPIRY (R108). -/
def execRefreshExpiry (s : State) : Host.Outcome State Fault Refusal := whenRunning refreshExpiryOp s

end Sys2Proof.Machine
end

