-- ==== Sys2Proof/Machine/Reset.lean ====
section
/-! DEFINITION. The two kinds of reset and the PAUSE line: HARD_RESET and RESET_RELEASE (R14, R17, R179, R194), the warm
restart of every block (R145), PAUSE_ASSERT and PAUSE_RELEASE (R184). -/

namespace Sys2Proof.Machine

/-! ## Hard reset -/

/-- The part while RESET is asserted: every block in its hard-reset state, transmitters and timers stopped (R17, R88,
R120, R179, R194). The node address is kept until the release reads the straps (R127), and the PAUSE state is the
level of the line (R194). -/
def heldInReset (s : State) : State :=
  { State.reset with
    now := s.now
    choices := s.choices
    inReset := true
    rx := ⟨.reset s.now, .reset s.now, .reset s.now⟩
    tx := ⟨.gap none, .gap none, .gap none⟩
    tickAt := none
    refreshAt := none
    node := s.node
    pause := s.pause
    pending := s.pending }

/-- HARD_RESET (R179). -/
def execHardReset (s : State) : Host.Outcome State Fault Refusal := .next (heldInReset s)

/-- The node address of the straps; 0 reads as 63 (R127). -/
def nodeOfStraps (straps : BitVec 6) : Byte := if straps = 0 then 63 else straps.setWidth 8

/-- A receiver at the release: SETTLING, its idle measured from the release if its line is high, and otherwise from
the moment the line goes high (R3, R14). -/
def releasedRx (now : Nat) (high : Bool) : Rx :=
  if high then .reset now else (Rx.reset now).waitHigh

/-- RESET is released (R14, R17, R68, R107, R127). -/
def releaseReset (straps : BitVec 6) (aHigh bHigh dHigh : Bool) (s : State) : State :=
  let s' : State :=
    { s with
      inReset := false
      rx := ⟨releasedRx s.now aHigh, releasedRx s.now bHigh, releasedRx s.now dHigh⟩
      tx := ⟨.gap (some (s.now + Config.gapClocks)), .gap (some (s.now + Config.gapClocks)),
        .gap (some (s.now + Config.gapClocks))⟩
      node := nodeOfStraps straps
      tickAt := some (s.now + s.tickClocks)
      refreshAt := some (s.now + s.refreshClocks) }
  if s'.pause then latch .paused s' else s'

/-- RESET_RELEASE (R14): a line already released has no release. -/
def execResetRelease (straps : BitVec 6) (aHigh bHigh dHigh : Bool) (s : State) : Host.Outcome State Fault Refusal :=
  if s.inReset then .next (releaseReset straps aHigh bHigh dHigh s) else .next s

/-! ## PAUSE -/

/-- PAUSE_ASSERT (R184): a change of the line; the latched set is held empty while RESET is asserted (R194). The edge is one
event for the condition unit and the fade engine, which read one PAUSE state: DESIGN CHOICE, log entry 18. -/
def execPauseAssert (s : State) : Host.Outcome State Fault Refusal :=
  if s.pause then .next s
  else if s.inReset then .next { s with pause := true }
  else .next (latch .paused { s with pause := true })

/-- PAUSE_RELEASE (R184), one event for the condition unit and the fade engine: DESIGN CHOICE, log entry 18. -/
def execPauseRelease (s : State) : Host.Outcome State Fault Refusal := .next { s with pause := false }

/-! ## Warm restart -/

/-- A port unit at a warm restart (R37). -/
def restartPorts (s : State) : State := { s with ports := ⟨s.ports.a.silenced, s.ports.b.silenced⟩ }

/-- The resolver at a warm restart, but for the resolution: parks cleared, owners none (R63, R91). -/
def restartResolver (s : State) : State :=
  clearOwners { s with parks := Vector.replicate Config.channels .reset }

/-- The output generator and the two paths at a warm restart (R121). -/
def restartPaths (s : State) : State := { s with missed := 0, forward := [], relay := [] }

/-- The session controller at a warm restart (R180): NONE stays, everything else becomes a copy begun now. -/
def restartSession (s : State) : State :=
  { s with
    session := (match s.session with
      | .noSession => .noSession
      | .opened _ _ | .verifying _ _ _ | .armed _ _ | .copying _ => .copying s.now)
    pointer := ⟨.config, 0⟩ }

/-- The condition unit at a warm restart, before the latchings the restart causes (R195). -/
def restartConditions (s : State) : State := { s with latched := 0, pendingNotices := 0 }.evalAlert

/-- The management unit at a warm restart, before the reply (R145, steps 1 and 2). WAITING entries are discarded and never sent.
An entry in SENDING leaves the queue, and its transmitter, which a restart does not stop, sends the frame to its end, with its
gap and its completion (R17): so also the frame of a reply that a FREE transmitter took at this very instant, whether the
reply of an executed request or the copy queued for a replay. That R147's first row speaks of WAITING replies alone, and that
a replay's copy is treated alike, is DEDUCED: log entry 17. -/
def restartManagement (s : State) : State := { s with queue := [], replay := ⟨none, none⟩ }

/-- The warm restart of every block but the latchings it causes (R145). -/
def warmRestart (s : State) : State :=
  resolveQuiet (fun _ => true)
    (restartManagement (restartConditions (restartSession (restartPaths (restartResolver (restartPorts s))))))

/-- The kinds a warm restart latches, in order: FALLBACK where a channel enters SCENE, then PAUSED where PAUSE is
asserted (R63, R195). -/
def restartLatches (s : State) : List Condition :=
  resolutionLatches s (warmRestart s) ++ (if s.pause then [.paused] else [])

end Sys2Proof.Machine
end

