-- ==== Sys2Proof/Machine/Requests.lean ====
section
/-! DEFINITION. The taking of a request (R128 to R134, R203): addressing, the replay check, the room check, the general
checks, broadcasts, the reply and the replay record. -/

namespace Sys2Proof.Machine

/-- What carrying out a command gives: the state, the result, the reply's data, and the kinds the command latches, in
order; the notices of an addressed request are offered after the reply has joined the queue (R134, R183). -/
structure Carried where
  state : State
  result : Result
  data : List Byte
  latches : List Condition
  deriving DecidableEq, Repr

/-- A command answered with a result other than OK, without effect (R134). -/
def refuseWith (r : Result) (s : State) : Carried := ⟨s, r, [], []⟩

/-- A nonzero reserved header field is answered BAD_ARGUMENT before the command's own checks (R134, R203). -/
def guardReserved (h : RequestHeader) (carry : State → Carried) (s : State) : Carried :=
  if h.reserved = 0 then carry s else refuseWith .badArgument s

/-! ## Addressed requests -/

/-- The replay record that a request matches, if any: nonzero tag, same tag and command on its port (R130, R131). -/
def replayMatch (h : RequestHeader) (code : Byte) (s : State) : Option ReplayRecord :=
  match s.replay.get h.port with
  | some r => if h.tag ≠ 0 ∧ r.tag = h.tag ∧ r.command = code then some r else none
  | none => none

/-- The stored reply queued again with a fresh summary byte, which the record takes (R132). -/
def replayAgain (h : RequestHeader) (r : ReplayRecord) (s : State) : State :=
  let reply := { r.reply with summary := s.summaryByte }
  joinQueue (.reply reply) h.port (s.setReplay h.port (some { r with reply := reply }))

/-- The reply to an executed request, its summary byte formed now (R125, R134). -/
def formReply (h : RequestHeader) (code : Byte) (c : Carried) (s : State) : Reply where
  node := s.node
  tag := h.tag
  command := code
  result := c.result
  summary := s.summaryByte
  data := c.data

/-- A reply joins the queue and the port's replay record is set from it (R130, R131). -/
def answer (h : RequestHeader) (code : Byte) (r : Reply) (s : State) : State :=
  joinQueue (.reply r) h.port (s.setReplay h.port (some ⟨h.tag, code, r⟩))

/-- What follows the carrying out: the kinds latch, the reply joins, the notices are offered (R134, R183). -/
def finishRequest (h : RequestHeader) (code : Byte) (c : Carried) : State :=
  let flags := latchFlags c.latches c.state
  offerNotices flags.2 (answer h code (formReply h code c flags.1) flags.1)

/-- An addressed request: the replay check, the room check, then the execution (R130). -/
def addressed (h : RequestHeader) (code : Byte) (carry : State → Carried) (s : State) : State :=
  match replayMatch h code s with
  | some r => if s.queue.length < Config.queueCapacity then replayAgain h r s else latch .replyOverflow s
  | none => if s.queue.length < Config.queueCapacity then finishRequest h code (carry s) else latch .replyOverflow s

/-! ## Broadcasts and requests not taken -/

/-- A request handed on at A, discarded at B (R128, R129). -/
def handOn (h : RequestHeader) (code : Byte) (args : List Byte) (s : State) : State :=
  match h.port with
  | .a => forwardPath (requestFrame h code args) s
  | .b => s

/-- A broadcast carried out without a reply (R129); each latching it causes is offered its notice at the latching itself
(R183). -/
def carryBroadcast (carry : State → Carried) (s : State) : State :=
  let c := carry s
  latchAll c.latches c.state

/-- A broadcast of one of the commands carried out as broadcasts: carried out and, from A, forwarded, at one event.
The two act on different state, but when the forwarding latches FORWARD_DROP the order is open (R115, R129; log entry
3). -/
def broadcastActing (h : RequestHeader) (code : Byte) (args : List Byte) (carry : State → Carried) (s : State) : State :=
  if h.port = .a ∧ s.forwardWillDrop then
    let (n, s) := s.choose
    if n % 2 = 0 then handOn h code args (carryBroadcast carry s)
    else carryBroadcast carry (handOn h code args s)
  else handOn h code args (carryBroadcast carry s)

/-- How a command acts as a broadcast: not at all; at the event of its taking; or, RESTART, before the forwarded copy
enters the emptied forward FIFO (R129, R146). -/
inductive BroadcastForm where
  | ignored | acts | restarts
  deriving DecidableEq, Repr

/-- A broadcast (R129). -/
def broadcast (form : BroadcastForm) (h : RequestHeader) (code : Byte) (args : List Byte) (carry : State → Carried)
    (s : State) : State :=
  match form with
  | .ignored => handOn h code args s
  | .acts => broadcastActing h code args carry s
  | .restarts => handOn h code args (carryBroadcast carry s)

/-! ## A request completes -/

/-- The management unit takes a good REQUEST frame (R128). -/
def takeRequest (form : BroadcastForm) (h : RequestHeader) (code : Byte) (args : List Byte) (carry : State → Carried)
    (s : State) : State :=
  if h.destination = s.node then addressed h code carry s
  else if h.destination = 0 then broadcast form h code args carry s
  else handOn h code args s

/-- A REQUEST frame completes at its receiver: too long a payload is a LENGTH error (R5, R7), else the receiver
settles and the management unit has the frame (R13). -/
def onRequest (form : BroadcastForm) (h : RequestHeader) (code : Byte) (args : List Byte) (carry : State → Carried)
    (s : State) : State :=
  if args.length + 4 > 256 then errorAtSample (rxOf h.port) .length s
  else takeRequest form h code args carry (settle (rxOf h.port) s)

/-- An unknown command is answered BAD_COMMAND whatever its reserved field holds (R134, R203). -/
def carryBadCommand (s : State) : Carried := refuseWith .badCommand s

/-- A REQUEST with an unknown code completes (R134). -/
def onBadCommand (h : RequestHeader) (code : Byte) (args : List Byte) (s : State) : State :=
  onRequest .ignored h code args carryBadCommand s

/-- A REQUEST for another node completes (R128). -/
def onRequestNotTaken (h : RequestHeader) (code : Byte) (args : List Byte) (s : State) : State :=
  handOn h code args (settle (rxOf h.port) s)

end Sys2Proof.Machine
end

