-- ==== Sys2Proof/Machine/Channels.lean ====
section
/-! DEFINITION. The commands on channels, scenes, conditions and the part as a whole: FORCE (R92, R93), RELEASE (R95),
SAVE_SCENE (R97, R98), ACK_CONDITIONS (R185), RESTART (R145). -/

namespace Sys2Proof.Machine

/-- Whether a channel is in the range first to first + count − 1 (00_scope, section 4). -/
def inRange (first count : Nat) (c : Fin Config.channels) : Bool := first ≤ c.val && c.val < first + count

/-- The range check of FORCE and RELEASE (R92, R95). -/
def rangeOk (first count : BitVec 16) : Bool :=
  count.toNat ≠ 0 && count.toNat ≤ 384 && first.toNat + count.toNat ≤ 384

/-- The profile field of FORCE: absent, a profile id, or refused (R92, R214). -/
def forceProfile (b : Byte) : Option (Option (Fin 16)) :=
  if b = 0xFF then some none
  else if h : b.toNat < 16 then some (some ⟨b.toNat, h⟩)
  else none

/-- The park records with a range replaced. -/
def setParks (first count : Nat) (p : ParkRecord) (s : State) : State :=
  { s with parks := Table.mapFin (fun c old => if inRange first count c then p else old) s.parks }

/-- A command that replaces the park records of a range and resolves its channels (R59). -/
def parkRange (first count : BitVec 16) (p : ParkRecord) (s : State) : Carried :=
  let s1 := setParks first.toNat count.toNat p s
  let s2 := resolveQuiet (inRange first.toNat count.toNat) s1
  ⟨s2, .ok, [], resolutionLatches s1 s2⟩

/-- FORCE carried out (R92, R93). -/
def carryForce (first count : BitVec 16) (level : Level) (profile : Byte) (s : State) : Carried :=
  if rangeOk first count then
    match forceProfile profile with
    | some p => parkRange first count ⟨true, level, p⟩ s
    | none => refuseWith .badArgument s
  else refuseWith .badArgument s

/-- RELEASE carried out (R95). -/
def carryRelease (first count : BitVec 16) (s : State) : Carried :=
  if rangeOk first count then parkRange first count .reset s else refuseWith .badArgument s

/-- The scene of every channel's present level (R64, R97). -/
def State.presentLevels (s : State) : Vector Level Config.channels := Table.mapFin (fun _ x => x.level) s.fades

/-- A write to a scene: the channels in SCENE whose fallback scene entry was written are resolved (R59, R98). -/
def sceneWritten (written : Fin 4 → Fin Config.channels → Bool) (s : State) : State :=
  resolveQuiet
    (fun c =>
      match s.config.fallback with
      | some f => s.targets[c].kind == .scene && written f c
      | none => false)
    s

/-- SAVE_SCENE carried out (R97, R98). -/
def carrySaveScene (scene : Byte) (s : State) : Carried :=
  if h : scene.toNat < 4 then
    let s1 := { s with scenes := s.scenes.set scene.toNat s.presentLevels }
    let s2 := sceneWritten (fun f _ => f.val == scene.toNat) s1
    ⟨s2, .ok, [], resolutionLatches s1 s2⟩
  else refuseWith .badArgument s

/-- ACK_CONDITIONS carried out (R185). -/
def carryAck (kinds : KindSet) (s : State) : Carried :=
  ⟨{ s with
      latched := removeKinds s.latched kinds
      pendingNotices := removeKinds s.pendingNotices kinds }.evalAlert, .ok, [], []⟩

/-- RESTART carried out (R145, R147, R195). -/
def carryRestart (s : State) : Carried := ⟨warmRestart s, .ok, [], restartLatches s⟩

/-- A FORCE frame completes. -/
def onForce (h : RequestHeader) (first count : BitVec 16) (level : Level) (profile : Byte) (extra : List Byte)
    (s : State) : State :=
  onRequest .acts h Command.force.code (argsForce first count level profile ++ extra)
    (guardReserved h (carryForce first count level profile)) s

/-- A RELEASE frame completes. -/
def onRelease (h : RequestHeader) (first count : BitVec 16) (extra : List Byte) (s : State) : State :=
  onRequest .acts h Command.release.code (argsRelease first count ++ extra)
    (guardReserved h (carryRelease first count)) s

/-- A SAVE_SCENE frame completes. -/
def onSaveScene (h : RequestHeader) (scene : Byte) (extra : List Byte) (s : State) : State :=
  onRequest .acts h Command.saveScene.code (scene :: extra) (guardReserved h (carrySaveScene scene)) s

/-- An ACK_CONDITIONS frame completes. -/
def onAckConditions (h : RequestHeader) (kinds : KindSet) (extra : List Byte) (s : State) : State :=
  onRequest .acts h Command.ackConditions.code (bytes16 kinds ++ extra) (guardReserved h (carryAck kinds)) s

/-- A RESTART frame completes. -/
def onRestart (h : RequestHeader) (extra : List Byte) (s : State) : State :=
  onRequest .restarts h Command.restart.code extra (guardReserved h carryRestart) s

/-- FORCE (R93). -/
def execForce (h : RequestHeader) (first count : BitVec 16) (level : Level) (profile : Byte) (extra : List Byte)
    (s : State) : Host.Outcome State Fault Refusal :=
  whenRunning (onForce h first count level profile extra) s

/-- RELEASE (R95). -/
def execRelease (h : RequestHeader) (first count : BitVec 16) (extra : List Byte) (s : State) :
    Host.Outcome State Fault Refusal :=
  whenRunning (onRelease h first count extra) s

/-- SAVE_SCENE (R97). -/
def execSaveScene (h : RequestHeader) (scene : Byte) (extra : List Byte) (s : State) :
    Host.Outcome State Fault Refusal :=
  whenRunning (onSaveScene h scene extra) s

/-- ACK_CONDITIONS (R185). -/
def execAckConditions (h : RequestHeader) (kinds : KindSet) (extra : List Byte) (s : State) :
    Host.Outcome State Fault Refusal :=
  whenRunning (onAckConditions h kinds extra) s

/-- RESTART (R145). -/
def execRestart (h : RequestHeader) (extra : List Byte) (s : State) : Host.Outcome State Fault Refusal :=
  whenRunning (onRestart h extra) s

end Sys2Proof.Machine
end

