-- ==== Sys2Proof/Machine/Loading.lean ====
section
/-! DEFINITION. The session commands: OPEN_SESSION (R156), WRITE_TABLE (R157 to R160, R98, R99), COMMIT (R163) and
ABORT_SESSION (R175). -/

namespace Sys2Proof.Machine

/-- The result of a session command that its session state does not let through: NO_SESSION, BUSY or LOCKED (the table
of section 8.4). `none` in OPEN from the owner. -/
def sessionRefusal (o : SessionOwner) (s : State) : Option Result :=
  match s.session with
  | .noSession => some .noSession
  | .copying _ => some .busy
  | .opened owner _ => if o = owner then none else some .locked
  | .verifying owner _ _ | .armed owner _ => if o = owner then some .busy else some .locked

/-- OPEN_SESSION carried out (R156). -/
def carryOpen (o : SessionOwner) (s : State) : Carried :=
  if o.token = 0 then refuseWith .badArgument s
  else
    match s.session with
    | .noSession => ⟨{ s with session := .opened o s.sessionExpiry, pointer := ⟨.config, 0⟩ }, .ok, [], []⟩
    | .opened owner _ =>
      if o = owner then ⟨{ s with session := .opened owner s.sessionExpiry }, .ok, [], []⟩
      else refuseWith .locked s
    | .verifying owner _ _ | .armed owner _ => refuseWith (if o = owner then .busy else .locked) s
    | .copying _ => refuseWith .busy s

/-! ## Writing the tables -/

/-- The starting index of a WRITE_TABLE: its own, the write pointer's when absent, or none when refused (R158, R159,
R214). -/
def startIndex (t : TableName) (index : BitVec 16) (pointer : WritePointer) : Option Nat :=
  if index = 0xFFFF then
    if pointer.table = t then some pointer.index else none
  else if index.toNat < t.entries then some index.toNat
  else none

/-- Entries written into one level table of all scenes, by index scene × 384 + channel (R99). -/
def writeScenes : Nat → List Level → Vector (Vector Level Config.channels) 4 → Vector (Vector Level Config.channels) 4
  | _, [], v => v
  | start, e :: es, v =>
    let i := start % 1536
    have h : i / 384 < 4 := by omega
    have hc : i % 384 < Config.channels := by simp only [Config.channels]; omega
    writeScenes (start + 1) es (v.set (i / 384) ((v[i / 384]).set (i % 384) e))

/-- Whether an entry of SCENES is among `count` entries written from `start` (R99, R159). -/
def sceneEntryWritten (start count : Nat) (f : Fin 4) (c : Fin Config.channels) : Bool :=
  (384 * f.val + c.val + 1536 - start % 1536) % 1536 < count

/-- A bank with entries of a banked table written from an index (R159). -/
def writeBank (t : TableName) (start : Nat) (entries : List (List Byte)) (b : Bank) : Bank :=
  match t with
  | .config =>
    match entries.getLast? with
    | some e => { b with config := .ofBytes e }
    | none => b
  | .map => { b with map := Table.writeCyclic start (entries.map .ofBytes) b.map }
  | .profiles => { b with profiles := Table.writeCyclic start (entries.map .ofBytes) b.profiles }
  | .curves => { b with curves := Table.writeCyclic start (entries.map curveOfBytes) b.curves }
  | .scenes => b

/-- Entries written: the scene store at once for SCENES, the shadow bank otherwise (R159, R160). -/
def writeEntries (t : TableName) (start : Nat) (entries : List (List Byte)) (s : State) : State :=
  match t with
  | .scenes =>
    let levels := entries.map fun e => pair (byteAt e 0) (byteAt e 1)
    sceneWritten (sceneEntryWritten start levels.length) { s with scenes := writeScenes start levels s.scenes }
  | .config | .map | .profiles | .curves =>
    { s with banks := s.banks.set s.active.other (writeBank t start entries s.shadowBank) }

/-- A WRITE_TABLE that passes its checks: the write, the pointer, the timer, and the pointer as data (R159). -/
def writeCarried (o : SessionOwner) (t : TableName) (start : Nat) (entries : List (List Byte)) (s : State) : Carried :=
  let s1 := writeEntries t start entries s
  let next := (start + entries.length) % t.entries
  ⟨{ s1 with pointer := ⟨t, next⟩, session := .opened o s.sessionExpiry }, .ok,
    t.code :: bytes16 (BitVec.ofNat 16 next), resolutionLatches s s1⟩

/-- WRITE_TABLE carried out (R157 to R160). -/
def carryWrite (o : SessionOwner) (table : Byte) (index : BitVec 16) (count : Byte) (entries : List Byte) (s : State) :
    Carried :=
  match sessionRefusal o s with
  | some r => refuseWith r s
  | none =>
    match TableName.ofCode table with
    | none => refuseWith .badArgument s
    | some t =>
      if count.toNat = 0 ∨ count.toNat > t.perRequest ∨ entries.length ≠ count.toNat * t.entrySize then
        refuseWith .badArgument s
      else
        match startIndex t index s.pointer with
        | none => refuseWith .badArgument s
        | some start => writeCarried o t start (chunks t.entrySize count.toNat entries) s

/-! ## COMMIT and ABORT_SESSION -/

/-- COMMIT carried out (R163). -/
def carryCommit (o : SessionOwner) (expected : Crc32) (s : State) : Carried :=
  match sessionRefusal o s with
  | some r => refuseWith r s
  | none => ⟨{ s with session := .verifying o expected s.now }, .accepted, [], []⟩

/-- ABORT_SESSION carried out (R175). -/
def carryAbort (o : SessionOwner) (s : State) : Carried :=
  match s.session with
  | .noSession => refuseWith .noSession s
  | .copying _ => refuseWith .busy s
  | .opened owner _ | .verifying owner _ _ =>
    if o = owner then ⟨startCopy s, .ok, [], []⟩ else refuseWith .locked s
  | .armed owner _ => refuseWith (if o = owner then .tooLate else .locked) s

/-! ## The commands -/

/-- An OPEN_SESSION frame completes. -/
def onOpenSession (h : RequestHeader) (token : BitVec 16) (extra : List Byte) (s : State) : State :=
  onRequest .ignored h Command.openSession.code (bytes16 token ++ extra)
    (guardReserved h (carryOpen ⟨h.port, token⟩)) s

/-- A WRITE_TABLE frame completes. -/
def onWriteTable (h : RequestHeader) (token : BitVec 16) (table : Byte) (index : BitVec 16) (count : Byte)
    (entries : List Byte) (s : State) : State :=
  onRequest .ignored h Command.writeTable.code (argsWriteTable token table index count ++ entries)
    (guardReserved h (carryWrite ⟨h.port, token⟩ table index count entries)) s

/-- A COMMIT frame completes. -/
def onCommit (h : RequestHeader) (token : BitVec 16) (expected : Crc32) (extra : List Byte) (s : State) : State :=
  onRequest .ignored h Command.commit.code (argsCommit token expected ++ extra)
    (guardReserved h (carryCommit ⟨h.port, token⟩ expected)) s

/-- An ABORT_SESSION frame completes. -/
def onAbortSession (h : RequestHeader) (token : BitVec 16) (extra : List Byte) (s : State) : State :=
  onRequest .ignored h Command.abortSession.code (bytes16 token ++ extra)
    (guardReserved h (carryAbort ⟨h.port, token⟩)) s

/-- OPEN_SESSION (R156). -/
def execOpenSession (h : RequestHeader) (token : BitVec 16) (extra : List Byte) (s : State) :
    Host.Outcome State Fault Refusal :=
  whenRunning (onOpenSession h token extra) s

/-- WRITE_TABLE (R159). -/
def execWriteTable (h : RequestHeader) (token : BitVec 16) (table : Byte) (index : BitVec 16) (count : Byte)
    (entries : List Byte) (s : State) : Host.Outcome State Fault Refusal :=
  whenRunning (onWriteTable h token table index count entries) s

/-- COMMIT (R163). -/
def execCommit (h : RequestHeader) (token : BitVec 16) (expected : Crc32) (extra : List Byte) (s : State) :
    Host.Outcome State Fault Refusal :=
  whenRunning (onCommit h token expected extra) s

/-- ABORT_SESSION (R175). -/
def execAbortSession (h : RequestHeader) (token : BitVec 16) (extra : List Byte) (s : State) :
    Host.Outcome State Fault Refusal :=
  whenRunning (onAbortSession h token extra) s

end Sys2Proof.Machine
end

