-- ==== Sys2Proof/Machine/Reading.lean ====
section
/-! DEFINITION. The read commands and their data: IDENTIFY (R142, R207), READ_STATUS (R143, R208), READ_CHANNELS (R90,
R209), READ_INPUTS (R38) and READ_TABLE (R176, R206). -/

namespace Sys2Proof.Machine

/-- An OK answer of a read command: the state unchanged and the data (R144). -/
def readAnswer (data : List Byte) (s : State) : Carried := ⟨s, .ok, data, []⟩

/-! ## IDENTIFY -/

/-- R207: the number of a bank. -/
def BankId.code : BankId → Byte
  | .bank0 => 0
  | .bank1 => 1

/-- The identity record (R142, R207). -/
def State.identityRecord (s : State) : List Byte :=
  bytes16 Config.vendorCode ++ bytes16 Config.partCode ++ [Config.revision, s.node, s.active.code] ++ bytes32 s.checksum

/-! ## READ_STATUS -/

/-- The codes of the status record (R208, R214). -/
def PortState.code : PortState → Byte
  | .silent => 0
  | .acquiring => 1
  | .live => 2
  | .holding => 3
  | .released => 4

def ErrorKind.code : Option ErrorKind → Byte
  | none => 0
  | some .character => 1
  | some .truncated => 2
  | some .length => 3
  | some .crc => 4
  | some .format => 5

def Session.code : Session → Byte
  | .noSession => 0
  | .opened _ _ => 1
  | .verifying _ _ _ => 2
  | .armed _ _ => 3
  | .copying _ => 4

/-- The owner of a session: absent in NONE and COPYING (section 8.4). -/
def Session.owner : Session → Option SessionOwner
  | .opened o _ | .verifying o _ _ | .armed o _ => some o
  | .noSession | .copying _ => none

def portCode : Port → Byte
  | .a => 0
  | .b => 1

/-- The owner fields: port 0xFF and token 0 when absent (R214). -/
def ownerBytes : Option SessionOwner → List Byte
  | some o => portCode o.port :: bytes16 o.token
  | none => [0xFF, 0, 0]

def FailureReason.code : FailureReason → Byte
  | .checksum => 0x01
  | .stream => 0x02
  | .outputLength => 0x03
  | .refresh => 0x04
  | .tick => 0x05
  | .lossTime => 0x06
  | .acquire => 0x07
  | .fallbackScene => 0x08
  | .fallbackProfile => 0x09
  | .sessionTimeout => 0x0A
  | .summaryList => 0x0B
  | .reserved => 0x0C
  | .mergeRule => 0x0D
  | .sources => 0x0E
  | .source => 0x0F
  | .curve => 0x10
  | .profile => 0x11
  | .kind => 0x12
  | .maxRate => 0x13
  | .floorRate => 0x14
  | .startRate => 0x15
  | .breakRate => 0x16
  | .accel => 0x17
  | .decel => 0x18

/-- The failing entry: table 0xFF and index 0xFFFF when absent (R214). -/
def entryBytes : Option WritePointer → List Byte
  | some e => e.table.code :: bytes16 (BitVec.ofNat 16 e.index)
  | none => [0xFF, 0xFF, 0xFF]

/-- The last commit outcome, reason, table and index (R208, R214). -/
def CommitOutcome.bytes : CommitOutcome → List Byte
  | .never => [0, 0] ++ entryBytes none
  | .done => [1, 0] ++ entryBytes none
  | .failed f => [2, f.reason.code] ++ entryBytes f.entry

def boolByte (b : Bool) : Byte := if b then 1 else 0

/-- The status record (R143, R208). -/
def State.statusRecord (s : State) : List Byte :=
  [s.ports.a.state.code, s.ports.b.state.code, BitVec.ofNat 8 s.ports.a.acquired, BitVec.ofNat 8 s.ports.b.acquired,
    s.ports.a.lastSequence, s.ports.b.lastSequence, ErrorKind.code s.rx.a.lastError, ErrorKind.code s.rx.b.lastError,
    ErrorKind.code s.rx.d.lastError, s.nextSequence] ++ bytes16 (BitVec.ofNat 16 s.missed) ++
  bytes16 (BitVec.ofNat 16 s.fallbackCount) ++ [s.session.code] ++ ownerBytes s.session.owner ++ s.outcome.bytes ++
  bytes16 s.latched ++ bytes16 s.pendingNotices ++ [boolByte s.pause, BitVec.ofNat 8 s.queue.length]

/-! ## READ_CHANNELS and READ_INPUTS -/

def Phase.code : Phase → Byte
  | .idle => 0
  | .moving => 1
  | .reversing => 2

def Direction.code : Direction → Byte
  | .up => 0
  | .down => 1

def SourceKind.code : SourceKind → Byte
  | .park => 0
  | .live => 1
  | .held => 2
  | .scene => 3

/-- A channel record (R209). -/
def channelRecord (x : FadeContext) (t : TargetRecord) : List Byte :=
  [x.phase.code, x.direction.code] ++ bytes16 x.level ++ [BitVec.ofNat 8 (x.position % 256)] ++
  bytes24 (BitVec.ofNat 24 x.rate) ++ bytes16 t.level ++ [t.kind.code, BitVec.ofNat 8 x.profile.val]

/-- READ_CHANNELS carried out (R90, R206). -/
def carryReadChannels (first : BitVec 16) (count : Byte) (s : State) : Carried :=
  if count.toNat < 1 ∨ count.toNat > 16 ∨ first.toNat + count.toNat > 384 then refuseWith .badArgument s
  else
    readAnswer (bytes16 first ++ [count] ++
      (Table.readRange first.toNat count.toNat (Vector.zip s.fades s.targets)).flatMap fun x => channelRecord x.1 x.2) s

/-- The port of a READ_INPUTS (R204). -/
def portOfCode (b : Byte) : Option Port := if b = 0 then some .a else if b = 1 then some .b else none

/-- One slot of the reply: level and valid flag (R206). -/
def slotBytes (slot : Slot) : List Byte := bytes16 slot.level ++ [boolByte slot.valid]

/-- READ_INPUTS carried out (R38, R206). -/
def carryReadInputs (port : Byte) (first : BitVec 16) (count : Byte) (s : State) : Carried :=
  match portOfCode port with
  | none => refuseWith .badArgument s
  | some p =>
    if count.toNat < 1 ∨ count.toNat > 64 ∨ first.toNat + count.toNat > 384 then refuseWith .badArgument s
    else
      readAnswer ([port] ++ bytes16 first ++ [count] ++
        (Table.readRange first.toNat count.toNat (s.ports.get p).slots).flatMap slotBytes) s

/-! ## READ_TABLE -/

/-- The bank a READ_TABLE names (R204). -/
inductive BankName where
  | active | shadow
  deriving DecidableEq, Repr

/-- R204. -/
def bankOfCode (b : Byte) : Option BankName := if b = 0 then some .active else if b = 1 then some .shadow else none

/-- Entries of a banked table of a bank, as held (R151, R176). -/
def readBank (t : TableName) (first count : Nat) (b : Bank) : List Byte :=
  match t with
  | .config => (([b.config].drop first).take count).flatMap ConfigRecord.bytes
  | .map => (Table.readRange first count b.map).flatMap MapEntry.bytes
  | .profiles => (Table.readRange first count b.profiles).flatMap ProfileRecord.bytes
  | .curves => (Table.readRange first count b.curves).flatMap curveBytes
  | .scenes => []

/-- Entries of SCENES (R99, R176). -/
def readScenes (first count : Nat) (v : Vector (Vector Level Config.channels) 4) : List Byte :=
  bytesOfHalves (((v.toList.flatMap fun x => x.toList).drop first).take count)

/-- READ_TABLE with its arguments passed (the second table of R176). -/
def readTableAnswer (bank : BankName) (t : TableName) (index : BitVec 16) (count : Byte) (s : State) : Carried :=
  let reply := t.code :: bytes16 index ++ [count]
  match t with
  | .scenes => readAnswer (reply ++ readScenes index.toNat count.toNat s.scenes) s
  | .config | .map | .profiles | .curves =>
    match bank with
    | .active => readAnswer (reply ++ readBank t index.toNat count.toNat s.activeBank) s
    | .shadow =>
      match s.session with
      | .copying _ => refuseWith .busy s
      | .noSession | .opened _ _ | .verifying _ _ _ | .armed _ _ =>
        readAnswer (reply ++ readBank t index.toNat count.toNat s.shadowBank) s

/-- READ_TABLE carried out (R176). -/
def carryReadTable (bank table : Byte) (index : BitVec 16) (count : Byte) (s : State) : Carried :=
  match bankOfCode bank, TableName.ofCode table with
  | some b, some t =>
    if count.toNat = 0 ∨ count.toNat > t.perRequest ∨ index.toNat ≥ t.entries ∨
        index.toNat + count.toNat > t.entries then
      refuseWith .badArgument s
    else readTableAnswer b t index count s
  | _, _ => refuseWith .badArgument s

/-! ## The commands -/

/-- IDENTIFY carried out (R142). -/
def carryIdentify (s : State) : Carried := readAnswer s.identityRecord s

/-- READ_STATUS carried out (R143). -/
def carryReadStatus (s : State) : Carried := readAnswer s.statusRecord s

/-- An IDENTIFY frame completes. -/
def onIdentify (h : RequestHeader) (extra : List Byte) (s : State) : State :=
  onRequest .ignored h Command.identify.code extra (guardReserved h carryIdentify) s

/-- A READ_STATUS frame completes. -/
def onReadStatus (h : RequestHeader) (extra : List Byte) (s : State) : State :=
  onRequest .ignored h Command.readStatus.code extra (guardReserved h carryReadStatus) s

/-- A READ_CHANNELS frame completes. -/
def onReadChannels (h : RequestHeader) (first : BitVec 16) (count : Byte) (extra : List Byte) (s : State) : State :=
  onRequest .ignored h Command.readChannels.code (argsReadChannels first count ++ extra)
    (guardReserved h (carryReadChannels first count)) s

/-- A READ_INPUTS frame completes. -/
def onReadInputs (h : RequestHeader) (port : Byte) (first : BitVec 16) (count : Byte) (extra : List Byte) (s : State) :
    State :=
  onRequest .ignored h Command.readInputs.code (argsReadInputs port first count ++ extra)
    (guardReserved h (carryReadInputs port first count)) s

/-- A READ_TABLE frame completes. -/
def onReadTable (h : RequestHeader) (bank table : Byte) (index : BitVec 16) (count : Byte) (extra : List Byte)
    (s : State) : State :=
  onRequest .ignored h Command.readTable.code (argsReadTable bank table index count ++ extra)
    (guardReserved h (carryReadTable bank table index count)) s

/-- IDENTIFY (R142). -/
def execIdentify (h : RequestHeader) (extra : List Byte) (s : State) : Host.Outcome State Fault Refusal :=
  whenRunning (onIdentify h extra) s

/-- READ_STATUS (R143). -/
def execReadStatus (h : RequestHeader) (extra : List Byte) (s : State) : Host.Outcome State Fault Refusal :=
  whenRunning (onReadStatus h extra) s

/-- READ_CHANNELS (R90). -/
def execReadChannels (h : RequestHeader) (first : BitVec 16) (count : Byte) (extra : List Byte) (s : State) :
    Host.Outcome State Fault Refusal :=
  whenRunning (onReadChannels h first count extra) s

/-- READ_INPUTS (R38). -/
def execReadInputs (h : RequestHeader) (port : Byte) (first : BitVec 16) (count : Byte) (extra : List Byte)
    (s : State) : Host.Outcome State Fault Refusal :=
  whenRunning (onReadInputs h port first count extra) s

/-- READ_TABLE (R176). -/
def execReadTable (h : RequestHeader) (bank table : Byte) (index : BitVec 16) (count : Byte) (extra : List Byte)
    (s : State) : Host.Outcome State Fault Refusal :=
  whenRunning (onReadTable h bank table index count extra) s

end Sys2Proof.Machine
end

