-- ==== Sys2Proof/Machine/Link.lean ====
section
/-! DEFINITION. The links: the receivers' characters, idle and errors (R2, R3, R6 to R13), the frames that complete
(R13, R115, R118, R128), and the transmitters' completions and gaps (R15, R112, R138, R140). -/

namespace Sys2Proof.Machine

/-! ## A frame completes -/

/-- The event of a frame that completes good, by the command it is (R13). A command that is no frame is none of these
events, and `decodeFrame` gives none. -/
def runFrameCommand (i : Instr) (s : State) : State :=
  match i with
  | .levelFrameA f => onLevelA f s
  | .levelFrameB f => onLevelB f s
  | .forwardFrame f => forwardPath f (settle .aRx s)
  | .relayFrame f => relayPath f (settle .dReturnRx s)
  | .bFrameDiscarded _ => settle .bRx s
  | .requestNotTaken h code args => onRequestNotTaken h code args s
  | .badCommand h code args => onBadCommand h code args s
  | .identify h extra => onIdentify h extra s
  | .readStatus h extra => onReadStatus h extra s
  | .readChannels h first count extra => onReadChannels h first count extra s
  | .readInputs h port first count extra => onReadInputs h port first count extra s
  | .readTable h bank table index count extra => onReadTable h bank table index count extra s
  | .openSession h token extra => onOpenSession h token extra s
  | .writeTable h token table index count entries => onWriteTable h token table index count entries s
  | .commit h token expected extra => onCommit h token expected extra s
  | .abortSession h token extra => onAbortSession h token extra s
  | .force h first count level profile extra => onForce h first count level profile extra s
  | .release h first count extra => onRelease h first count extra s
  | .saveScene h scene extra => onSaveScene h scene extra s
  | .ackConditions h kinds extra => onAckConditions h kinds extra s
  | .restart h extra => onRestart h extra s
  | .hardReset | .resetRelease _ _ _ _ | .pauseAssert | .pauseRelease | .interFrameIdle _ | .truncated _
  | .receiveError _ _ | .fadeTick | .refreshExpiry | .lossExpiry _ | .holdExpiry _ | .sessionExpiry
  | .verificationComplete | .copyComplete | .transmitComplete _ | .gapEnd _ | .characterReceived _ _
  | .lineReturnHigh _ => s

/-- A frame whose CRC check passed completes at a receiver: a receive error, or the event it is (R7, R10, R13). -/
def completeFrame (rx : Receiver) (f : Frame) (s : State) : State :=
  match decodeFrame s.node rx f with
  | .error e => errorAtSample rx e s
  | .ok i => runFrameCommand i s

/-- FORWARD_FRAME (R115): the completion of the frame at A-rx. -/
def execForwardFrame (f : Frame) (s : State) : Host.Outcome State Fault Refusal :=
  whenRunning (completeFrame .aRx f) s

/-- RELAY_FRAME (R118): the completion of the frame at D-return-rx. -/
def execRelayFrame (f : Frame) (s : State) : Host.Outcome State Fault Refusal :=
  whenRunning (completeFrame .dReturnRx f) s

/-- B_FRAME_DISCARDED (R13): the completion of the frame at B-rx. -/
def execBFrameDiscarded (f : Frame) (s : State) : Host.Outcome State Fault Refusal :=
  whenRunning (completeFrame .bRx f) s

/-- REQUEST_NOT_TAKEN (R128): the completion of the REQUEST at its port's receiver. -/
def execRequestNotTaken (h : RequestHeader) (code : Byte) (args : List Byte) (s : State) :
    Host.Outcome State Fault Refusal :=
  whenRunning (completeFrame (rxOf h.port) (requestFrame h code args)) s

/-- BAD_COMMAND (R134): the completion of the REQUEST at its port's receiver. -/
def execBadCommand (h : RequestHeader) (code : Byte) (args : List Byte) (s : State) :
    Host.Outcome State Fault Refusal :=
  whenRunning (completeFrame (rxOf h.port) (requestFrame h code args)) s

/-! ## Characters -/

/-- A character assembled from its samples: nothing for a false start, else the data byte and whether the stop bit was
sampled high (R1, R2). -/
def assemble (samples : BitVec 10) : Option (Byte × Bool) :=
  if samples.getLsbD 0 then none else some (samples.extractLsb' 1 8, samples.getLsbD 9)

/-- The samples of a good character (R1). -/
def goodCharacter (b : Byte) : BitVec 10 := 1#1 ++ b ++ 0#1

/-- A receiver with one more byte stored and folded into the running CRC (R7). -/
def Rx.store (x : Rx) (b : Byte) : Rx := { x with buffer := x.buffer ++ [b], crc := crc16Byte x.crc b }

/-- The payload length in a frame buffer that holds the header (R4). -/
def headerLength (buffer : List Byte) : Nat := (pair (byteAt buffer 1) (byteAt buffer 2)).toNat

/-- A good character in RECEIVING (R7, R8): header, payload, then the two CRC characters. -/
def receiveByte (rx : Receiver) (b : Byte) (s : State) : State :=
  let x := s.rx.get rx
  match x.expected with
  | none =>
    let x' := (x.store b).measureFrom s.now
    if x'.buffer.length < 3 then s.setRx rx x'
    else if headerLength x'.buffer > maxPayload (byteAt x'.buffer 0) then errorAtSample rx .length s
    else s.setRx rx { x' with expected := some (headerLength x'.buffer) }
  | some (n + 1) => s.setRx rx { (x.store b).measureFrom s.now with expected := some n }
  | some 0 =>
    match x.crcFirst with
    | none => s.setRx rx { x.measureFrom s.now with crcFirst := some b }
    | some hi =>
      if pair hi b = x.crc then completeFrame rx ⟨byteAt x.buffer 0, x.buffer.drop 3⟩ s
      else errorAtSample rx .crc s

/-- A good character handed to the frame logic (R6, R7). -/
def goodCharacterOp (rx : Receiver) (b : Byte) (s : State) : State :=
  let x := s.rx.get rx
  match x.phase with
  | .settling => s.setRx rx (x.measureFrom s.now)
  | .hunting =>
    if b = 0xC3 then s.setRx rx { x.settled.measureFrom s.now with phase := .receiving }
    else s.setRx rx (x.settled.measureFrom s.now)
  | .receiving => receiveByte rx b s

/-- A bad character handed to the frame logic (R2, R6, R9). -/
def badCharacterOp (rx : Receiver) (s : State) : State :=
  let x := s.rx.get rx
  match x.phase with
  | .settling | .hunting => s.setRx rx x.settled.waitHigh
  | .receiving => errorAtSample rx .character s

/-! ## Idle -/

/-- INTER_FRAME_IDLE (R3, R6): measured idle reaches 12 µs; a receiver in SETTLING hunts. -/
def interFrameIdleOp (rx : Receiver) (s : State) : State :=
  let x := s.rx.get rx
  match x.phase, x.idleSince with
  | .settling, some t =>
    (s.reach (t + Config.gapClocks)).setRx rx { x.idleUntil (t + Config.gapClocks) with phase := .hunting }
  | _, _ => s

/-- TRUNCATED (R3, R9): measured idle passes 8 µs in RECEIVING; the idle measurement goes on. -/
def truncatedOp (rx : Receiver) (s : State) : State :=
  let x := s.rx.get rx
  match x.phase, x.idleSince with
  | .receiving, some t =>
    receiveErrorOp rx .truncated
      ((s.reach (t + Config.truncationClocks)).setRx rx (x.idleUntil (t + Config.truncationClocks)))
  | _, _ => s

/-- The idle that a leading edge ends, when it has passed 8 µs in RECEIVING: the frame is truncated before the edge (R3,
R9). -/
def truncateBefore (rx : Receiver) (edge : Nat) (s : State) : State :=
  match (s.rx.get rx).idleSince with
  | some t => if t + Config.truncationClocks < edge then truncatedOp rx s else s
  | none => s

/-- The idle that a leading edge ends, when it has reached 12 µs in SETTLING: the receiver hunts before the edge (R3,
R6). -/
def huntBefore (rx : Receiver) (edge : Nat) (s : State) : State :=
  match (s.rx.get rx).idleSince with
  | some t => if t + Config.gapClocks ≤ edge then interFrameIdleOp rx s else s
  | none => s

/-- The instant of the stop-bit sample of a character whose command comes now: its leading edge lies nine and a half bit
times before it, and not before the line could carry one (R1, R2; log entry 11). -/
def stopSample (rx : Receiver) (s : State) : Nat := max s.now ((s.rx.get rx).edgeFrom + Config.sampleClocks)

/-! ## Characters at the frame logic -/

/-- A character handed to the frame logic at its stop-bit sample, the idle before its start bit having had its effects and
being cancelled (R2, R3, R6). -/
def takeCharacter (rx : Receiver) (b : Byte) (good : Bool) (s : State) : State :=
  let sample := stopSample rx s
  let s' := (huntBefore rx (sample - Config.sampleClocks) (truncateBefore rx (sample - Config.sampleClocks) s)).reach sample
  if good then goodCharacterOp rx b s' else badCharacterOp rx s'

/-- CHARACTER_RECEIVED (R2, R6): no start bit is looked for while the line is awaited high, and a false start leaves
everything as it was. -/
def characterOp (rx : Receiver) (samples : BitVec 10) (s : State) : State :=
  if (s.rx.get rx).awaitHigh then s
  else
    match assemble samples with
    | none => s
    | some (b, good) => takeCharacter rx b good s

/-- CHARACTER_RECEIVED (R6). -/
def execCharacterReceived (rx : Receiver) (samples : BitVec 10) (s : State) : Host.Outcome State Fault Refusal :=
  whenRunning (characterOp rx samples) s

/-! ## Errors and the line -/

/-- RECEIVE_ERROR (R11); D-return-rx makes no payload checks and detects no FORMAT error (R10). -/
def receiveErrorEvent (rx : Receiver) (e : DetectedError) (s : State) : State :=
  if rx = .dReturnRx ∧ e = .format then s else errorAtSample rx e s

/-- LINE_RETURN_HIGH (R2, R3). -/
def lineReturnHighOp (rx : Receiver) (s : State) : State :=
  let x := s.rx.get rx
  if x.awaitHigh then s.setRx rx (x.lineHigh s.now) else s

/-- INTER_FRAME_IDLE (R6). -/
def execInterFrameIdle (rx : Receiver) (s : State) : Host.Outcome State Fault Refusal :=
  whenRunning (interFrameIdleOp rx) s

/-- TRUNCATED (R9). -/
def execTruncated (rx : Receiver) (s : State) : Host.Outcome State Fault Refusal := whenRunning (truncatedOp rx) s

/-- RECEIVE_ERROR (R11). -/
def execReceiveError (rx : Receiver) (e : DetectedError) (s : State) : Host.Outcome State Fault Refusal :=
  whenRunning (receiveErrorEvent rx e) s

/-- LINE_RETURN_HIGH (R3). -/
def execLineReturnHigh (rx : Receiver) (s : State) : Host.Outcome State Fault Refusal :=
  whenRunning (lineReturnHighOp rx) s

/-! ## Transmitters -/

/-- The queue without its entry SENDING for a port, if there is one (R138). -/
def removeSending (p : Port) : List QueueEntry → Option (List QueueEntry)
  | [] => none
  | e :: rest => if e.destination = p ∧ e.state = .sending then some rest else (removeSending p rest).map (e :: ·)

/-- The completion of an entry of the reply queue: it leaves, and one pending kind moves in; a completion that finds no
entry moves nothing (R138, R145, R190). -/
def entryCompleted (p : Port) (s : State) : State :=
  match removeSending p s.queue with
  | some q => drainPending { s with queue := q }
  | none => s

/-- The completion of the output frame makes it EMPTY; the completion of a forwarded frame concerns no block (R112,
R116). -/
def outputCompleted (s : State) : State :=
  match s.output with
  | .sending _ => { s with output := .empty }
  | .empty | .waiting _ => s

/-- The completion is reported to the block that offered the frame (R15). -/
def reportCompletion : Transmitter → State → State
  | .dTx => outputCompleted
  | .aReturnTx => entryCompleted .a
  | .bReturnTx => entryCompleted .b

/-- TRANSMIT_COMPLETE (R15): the transmitter enters GAP for 12 µs. -/
def transmitCompleteOp (t : Transmitter) (s : State) : State :=
  match s.tx.get t with
  | .sending _ doneAt =>
    reportCompletion t ((s.reach doneAt).setTx t (.gap (some (doneAt + Config.gapClocks))))
  | .free | .gap _ => s

/-- GAP_END (R15): the transmitter enters FREE and takes a waiting frame. -/
def gapEndOp (t : Transmitter) (s : State) : State :=
  match s.tx.get t with
  | .gap (some endAt) => serve t ((s.reach endAt).setTx t .free)
  | .free | .sending _ _ | .gap none => s

/-- TRANSMIT_COMPLETE (R15). -/
def execTransmitComplete (t : Transmitter) (s : State) : Host.Outcome State Fault Refusal :=
  whenRunning (transmitCompleteOp t) s

/-- GAP_END (R15). -/
def execGapEnd (t : Transmitter) (s : State) : Host.Outcome State Fault Refusal := whenRunning (gapEndOp t) s

/-! ## The transmitted lines -/

/-- The level of a line that carries characters, so many bits after the first start bit: each character is its start bit,
its data bits least significant first and its stop bit, back to back; a line that carries none is high (R1, R15). -/
def characterLine (chars : List Byte) (bit : Nat) : Bool :=
  match chars[bit / 10]? with
  | some b => (goodCharacter b).getLsbD (bit % 10)
  | none => true

/-- The level a transmitter drives on its line now: the bit of the frame it sends, each bit 8 clock periods long, and
idle high in FREE and in GAP (R1, R15, R16, R17). -/
def State.outputLine (s : State) (t : Transmitter) : Bool :=
  match s.tx.get t with
  | .sending f doneAt => characterLine (frameCharacters f) ((s.now + frameClocks f - doneAt) / 8)
  | .free | .gap _ => true

end Sys2Proof.Machine
end

