-- ==== Sys2Proof/Machine/Clock.lean ====
section
/-! DEFINITION. What the part does while no command waits: its clock advances, and the events of its own timers and
transmitters that are due become the next command (log entry 1). -/

namespace Sys2Proof.Machine

/-- Whether an instant has come. -/
def dueAt (now : Nat) (t : Option Nat) : Bool :=
  match t with
  | some t => t ≤ now
  | none => false

/-- When the inactivity timer expires (R161). -/
def Session.timer : Session → Option Nat
  | .opened _ t => some t
  | .noSession | .verifying _ _ _ | .armed _ _ | .copying _ => none

/-- When work begun at an instant completes: later than it and no more than 1 ms after it, a free value (R163, R173;
log entry 4). -/
def workDone (since : Nat) : Nat := since + 1 + Config.workTime since % Config.msClocks

/-- When a verification completes (R163). -/
def Session.verified : Session → Option Nat
  | .verifying _ _ since => some (workDone since)
  | .noSession | .opened _ _ | .armed _ _ | .copying _ => none

/-- When a bank copy completes (R173). -/
def Session.copied : Session → Option Nat
  | .copying since => some (workDone since)
  | .noSession | .opened _ _ | .verifying _ _ _ | .armed _ _ => none

/-- When the last character of a frame being sent ends (R15). -/
def Tx.doneAt : Tx → Option Nat
  | .sending _ t => some t
  | .free | .gap _ => none

/-- When a gap ends (R15). -/
def Tx.gapEndAt : Tx → Option Nat
  | .gap t => t
  | .free | .sending _ _ => none

/-- The part's own events with the instants they are due. -/
def ownEvents (s : State) : List (Option Nat × Instr) :=
  [ (s.tickAt, .fadeTick), (s.refreshAt, .refreshExpiry),
    (s.ports.a.lossAt, .lossExpiry .a), (s.ports.b.lossAt, .lossExpiry .b),
    (s.ports.a.holdAt, .holdExpiry .a), (s.ports.b.holdAt, .holdExpiry .b),
    (s.session.timer, .sessionExpiry), (s.session.verified, .verificationComplete), (s.session.copied, .copyComplete),
    (s.tx.d.doneAt, .transmitComplete .dTx), (s.tx.a.doneAt, .transmitComplete .aReturnTx),
    (s.tx.b.doneAt, .transmitComplete .bReturnTx), (s.tx.d.gapEndAt, .gapEnd .dTx),
    (s.tx.a.gapEndAt, .gapEnd .aReturnTx), (s.tx.b.gapEndAt, .gapEnd .bReturnTx) ]

/-- The part's own events that are due now. -/
def dueEvents (s : State) : List Instr := ((ownEvents s).filter fun e => dueAt s.now e.1).map (·.2)

/-- A step with no command waiting: an event that is due waits as the next command, one chosen freely where several
are due (log entry 3); with none due the clock advances by one period. -/
def idle (s : State) : State :=
  match dueEvents s with
  | [] => { s with now := s.now + 1 }
  | [i] => { s with pending := [i] }
  | i :: rest =>
    let (n, s) := s.choose
    { s with pending := [(i :: rest).getD (n % (rest.length + 1)) i] }

end Sys2Proof.Machine
end

