-- ==== Sys2Proof/Machine/Dispatch.lean ====
section
/-! DEFINITION. One arm for each command: its meaning. -/

namespace Sys2Proof.Machine

/-- The effect of a command on everything but the queue of waiting commands. -/
def exec (i : Instr) (s : State) : Host.Outcome State Fault Refusal :=
  match i with
  | .hardReset => Sys2Proof.Machine.execHardReset s
  | .resetRelease straps aHigh bHigh dHigh => Sys2Proof.Machine.execResetRelease straps aHigh bHigh dHigh s
  | .pauseAssert => Sys2Proof.Machine.execPauseAssert s
  | .pauseRelease => Sys2Proof.Machine.execPauseRelease s
  | .interFrameIdle rx => Sys2Proof.Machine.execInterFrameIdle rx s
  | .truncated rx => Sys2Proof.Machine.execTruncated rx s
  | .receiveError rx error => Sys2Proof.Machine.execReceiveError rx error s
  | .levelFrameA frame => Sys2Proof.Machine.execLevelFrameA frame s
  | .levelFrameB frame => Sys2Proof.Machine.execLevelFrameB frame s
  | .forwardFrame frame => Sys2Proof.Machine.execForwardFrame frame s
  | .relayFrame frame => Sys2Proof.Machine.execRelayFrame frame s
  | .requestNotTaken h code args => Sys2Proof.Machine.execRequestNotTaken h code args s
  | .badCommand h code args => Sys2Proof.Machine.execBadCommand h code args s
  | .identify h extra => Sys2Proof.Machine.execIdentify h extra s
  | .readStatus h extra => Sys2Proof.Machine.execReadStatus h extra s
  | .readChannels h first count extra => Sys2Proof.Machine.execReadChannels h first count extra s
  | .readInputs h port first count extra => Sys2Proof.Machine.execReadInputs h port first count extra s
  | .readTable h bank table index count extra => Sys2Proof.Machine.execReadTable h bank table index count extra s
  | .openSession h token extra => Sys2Proof.Machine.execOpenSession h token extra s
  | .writeTable h token table index count entries => Sys2Proof.Machine.execWriteTable h token table index count entries s
  | .commit h token expected extra => Sys2Proof.Machine.execCommit h token expected extra s
  | .abortSession h token extra => Sys2Proof.Machine.execAbortSession h token extra s
  | .force h first count level profile extra => Sys2Proof.Machine.execForce h first count level profile extra s
  | .release h first count extra => Sys2Proof.Machine.execRelease h first count extra s
  | .saveScene h scene extra => Sys2Proof.Machine.execSaveScene h scene extra s
  | .ackConditions h kinds extra => Sys2Proof.Machine.execAckConditions h kinds extra s
  | .restart h extra => Sys2Proof.Machine.execRestart h extra s
  | .fadeTick => Sys2Proof.Machine.execFadeTick s
  | .refreshExpiry => Sys2Proof.Machine.execRefreshExpiry s
  | .lossExpiry p => Sys2Proof.Machine.execLossExpiry p s
  | .holdExpiry p => Sys2Proof.Machine.execHoldExpiry p s
  | .sessionExpiry => Sys2Proof.Machine.execSessionExpiry s
  | .verificationComplete => Sys2Proof.Machine.execVerificationComplete s
  | .copyComplete => Sys2Proof.Machine.execCopyComplete s
  | .transmitComplete tx => Sys2Proof.Machine.execTransmitComplete tx s
  | .gapEnd tx => Sys2Proof.Machine.execGapEnd tx s
  | .characterReceived rx samples => Sys2Proof.Machine.execCharacterReceived rx samples s
  | .lineReturnHigh rx => Sys2Proof.Machine.execLineReturnHigh rx s
  | .bFrameDiscarded frame => Sys2Proof.Machine.execBFrameDiscarded frame s

end Sys2Proof.Machine
end

