-- ==== Sys2Proof/WellFormed.lean ====
section
/-! DEFINITION. Which commands are events that can happen as written: the checks a frame or a character must pass to be
the event its row names. -/

namespace Sys2Proof

/-- A LEVEL frame that passes the LEVEL checks of R10. -/
def LevelFrame.wellFormed (f : LevelFrame) : Bool :=
  1 ≤ f.levels.length && f.first.toNat + f.levels.length ≤ Config.channels

/-- A frame within the largest payload of its kind (R5). -/
def Frame.lengthOk (f : Frame) : Bool := f.payload.length ≤ Machine.maxPayload f.kind

/-- A frame of kind REPLY, NOTICE or opaque (R13). -/
def Frame.carriedOn (f : Frame) : Bool := f.kind != Frame.levelKind && f.kind != Frame.requestKind

/-- A REQUEST within 256 payload bytes (R5). -/
def requestLengthOk (args : List Byte) : Bool := args.length + 4 ≤ 256

/-- Whether the arguments are long enough for a code (R10, R204). -/
def argsComplete (code : Byte) (args : List Byte) : Bool :=
  match Machine.Command.ofCode code with
  | some c => c.fixedBytes ≤ args.length
  | none => true

/-- Whether a command is an event that can happen as written. -/
def Instr.wellFormed (i : Instr) : Bool :=
  match i with
  | .hardReset => true
  | .resetRelease _ _ _ _ => true
  | .pauseAssert => true
  | .pauseRelease => true
  | .interFrameIdle _ => true
  | .truncated _ => true
  | .receiveError rx e => !(rx = .dReturnRx && e = .format)
  | .levelFrameA f => f.wellFormed
  | .levelFrameB f => f.wellFormed
  | .forwardFrame f => f.carriedOn && f.lengthOk
  | .relayFrame f => f.lengthOk
  | .requestNotTaken h code args => h.destination ≠ 0 && argsComplete code args && requestLengthOk args
  | .badCommand _ code args => (Machine.Command.ofCode code).isNone && requestLengthOk args
  | .identify _ extra => requestLengthOk extra
  | .readStatus _ extra => requestLengthOk extra
  | .readChannels _ first count extra => requestLengthOk (Machine.argsReadChannels first count ++ extra)
  | .readInputs _ port first count extra => requestLengthOk (Machine.argsReadInputs port first count ++ extra)
  | .readTable _ bank table index count extra =>
    requestLengthOk (Machine.argsReadTable bank table index count ++ extra)
  | .openSession _ token extra => requestLengthOk (Machine.bytes16 token ++ extra)
  | .writeTable _ token table index count entries =>
    requestLengthOk (Machine.argsWriteTable token table index count ++ entries)
  | .commit _ token expected extra => requestLengthOk (Machine.argsCommit token expected ++ extra)
  | .abortSession _ token extra => requestLengthOk (Machine.bytes16 token ++ extra)
  | .force _ first count level profile extra =>
    requestLengthOk (Machine.argsForce first count level profile ++ extra)
  | .release _ first count extra => requestLengthOk (Machine.argsRelease first count ++ extra)
  | .saveScene _ scene extra => requestLengthOk (scene :: extra)
  | .ackConditions _ kinds extra => requestLengthOk (Machine.bytes16 kinds ++ extra)
  | .restart _ extra => requestLengthOk extra
  | .fadeTick => true
  | .refreshExpiry => true
  | .lossExpiry _ => true
  | .holdExpiry _ => true
  | .sessionExpiry => true
  | .verificationComplete => true
  | .copyComplete => true
  | .transmitComplete _ => true
  | .gapEnd _ => true
  | .characterReceived _ samples => !samples.getLsbD 0
  | .lineReturnHigh _ => true
  | .bFrameDiscarded f => f.carriedOn && f.lengthOk

end Sys2Proof
end

