-- ==== Sys2Proof/Safety.lean ====
section
/-! DEFINITION. What holds of the part at every moment (the invariants that the claims are about), and the terms in
which the claims speak of answers, of frames fed to a receiver and of fades left to themselves. -/

namespace Sys2Proof.Machine

/-! ## Capacities and links -/

/-- The bounds of the reply queue, the two FIFOs and the missed-refresh count (R136, R116, R118, R108). -/
def State.WithinCapacity (s : State) : Prop :=
  s.queue.length ≤ 8 ∧ s.forward.length ≤ 4 ∧ s.relay.length ≤ 4 ∧ s.missed ≤ 65535

/-- Whether an entry waits for the return transmitter of a port (R136). -/
def QueueEntry.waitsFor (p : Port) (e : QueueEntry) : Bool := e.destination = p ∧ e.state = .waiting

/-- Whether an entry is with the return transmitter of a port (R136). -/
def QueueEntry.sendsOn (p : Port) (e : QueueEntry) : Bool := e.destination = p ∧ e.state = .sending

/-- A transmitter in FREE has no frame offered to it that it left waiting (R15, R112, R116, R119, R137, R139). -/
def State.NothingWaitsForFree (s : State) : Prop :=
  (s.tx.d = .free → (∀ f, s.output ≠ .waiting f) ∧ s.forward = []) ∧
  (s.tx.a = .free → s.relay = [] ∧ s.queue.countP (·.waitsFor .a) = 0) ∧
  (s.tx.b = .free → s.queue.countP (·.waitsFor .b) = 0)

/-- What the output generator and the reply queue call SENDING is on its line: the output frame on D, and at most one
entry for each return line; while RESET is asserted nothing is SENDING (R112, R120, R138, R139, R140, R148). -/
def State.SendingIsOnLine (s : State) : Prop :=
  (s.inReset = true → s.output = .empty ∧ s.queue = []) ∧
  (∀ f, s.output = .sending f → ∃ n, s.tx.d = .sending f n) ∧
  (∀ p, s.queue.countP (·.sendsOn p) ≤ 1) ∧
  (∀ p, ∀ e ∈ s.queue, e.sendsOn p = true → ∃ n, s.tx.get (returnTx p) = .sending e.message.frame n)

/-! ## Conditions -/

/-- ALERT is driven low exactly while a latched kind is in the alert mask of the active bank (R187). -/
def State.AlertFollows (s : State) : Prop :=
  s.alert = true ↔ ∃ k, hasKind s.latched k = true ∧ hasKind s.config.alertMask k = true

/-- The notices owed or queued for a kind. -/
def State.noticesFor (s : State) (k : Condition) : Nat :=
  s.queue.countP (·.isNoticeOf k) + (if hasKind s.pendingNotices k then 1 else 0)

/-- A kind has at most one notice queued or pending, a pending kind is latched, and while a kind is pending the reply
queue is full (R185, R189, R190, R138). -/
def State.NoticesOnce (s : State) : Prop :=
  (∀ k, s.noticesFor k ≤ 1) ∧
  (∀ k, hasKind s.pendingNotices k = true → hasKind s.latched k = true ∧ s.queue.length = 8)

/-! ## Program set -/

/-- While RESET is asserted both banks hold the default set and bank 0 is active (R154, R179). -/
def State.DefaultsUnderReset (s : State) : Prop :=
  s.inReset = true → s.banks = ⟨.default, .default⟩ ∧ s.active = .bank0

/-- The active bank has passed verification under the checksum held; with no session the shadow equals it; and an
ARMED session's shadow has passed verification under the committed checksum (R154, R165, R170, R171, R174, R179). -/
def State.ProgramSound (s : State) : Prop :=
  verify s.activeBank s.checksum = none ∧
  (s.session = .noSession → s.shadowBank = s.activeBank) ∧
  (∀ o c, s.session = .armed o c → verify s.shadowBank c = none)

/-- The write pointer names an entry of its table (R159). -/
def State.PointerInRange (s : State) : Prop := s.pointer.index < s.pointer.table.entries

/-! ## Ports, targets and fades -/

/-- Which timers run, and what the count and the slots are, in each port state (R22, R24 to R30). -/
def PortUnit.Sound (u : PortUnit) : Prop :=
  match u.state with
  | .silent | .released =>
    u.acquired = 0 ∧ u.lossAt = none ∧ u.holdAt = none ∧ ∀ i : Fin Config.channels, u.slots[i].valid = false
  | .acquiring | .live => u.lossAt.isSome = true ∧ u.holdAt = none
  | .holding => u.lossAt = none ∧ u.holdAt.isSome = true

/-- Both port units are sound. -/
def State.PortsSound (s : State) : Prop := s.ports.a.Sound ∧ s.ports.b.Sound

/-- Every channel's target record is the one a resolution of the channel would give now (R53, R58 to R60). -/
def State.TargetsResolved (s : State) : Prop :=
  ∀ c : Fin Config.channels, resolveTarget s c s.targets[c] = s.targets[c]

/-- A channel whose rule is not LATEST has no merge owner (R47). -/
def State.OwnersSound (s : State) : Prop :=
  ∀ c : Fin Config.channels, s.activeBank.map[c].mergeRule ≠ .latest → s.targets[c].owner = .nobody

/-- The ranges of a fade context (R64, R65). -/
def FadeContext.InRange (x : FadeContext) : Prop :=
  x.position ≤ 16777215 ∧ x.rate ≤ 16777215 ∧ x.aim ≤ 16776960 ∧ x.aim % 256 = 0 ∧ (x.phase = .idle → x.rate = 0)

/-- Every fade context is in range. -/
def State.FadesInRange (s : State) : Prop := ∀ c : Fin Config.channels, s.fades[c].InRange

/-- A channel at rest on its aimed target. -/
def FadeContext.AtRest (x : FadeContext) : Prop := x.position = x.aim ∧ x.rate = 0 ∧ x.phase = .idle

/-- The node address is 1 to 63 (R127). -/
def State.NodeInRange (s : State) : Prop := 1 ≤ s.node.toNat ∧ s.node.toNat ≤ 63

/-! ## Terms of the claims -/

/-- A step that keeps a property from every state that has it. -/
def KeptByEveryStep (P : State → Prop) : Prop := ∀ s t : State, P s → step s = .next t → P t

/-- A request is executed when it comes: RESET is released, the request is addressed to this part, it is no replay,
the reply queue has room, and its payload is within 256 bytes (R5, R128, R130). -/
def Executes (h : RequestHeader) (code : Byte) (args : List Byte) (s : State) : Prop :=
  s.inReset = false ∧ h.destination = s.node ∧
  (∀ r, s.replay.get h.port = some r → ¬ (h.tag ≠ 0 ∧ r.tag = h.tag ∧ r.command = code)) ∧
  s.queue.length < 8 ∧ args.length + 4 ≤ 256

/-- The replies and notices of a queue with their destinations, whatever their states. -/
def entries (q : List QueueEntry) : List (Message × Port) := q.map fun e => (e.message, e.destination)

/-- A request was answered between two states: its reply, with this result, this data and the summary byte of the
second state, joined the tail of the reply queue, followed by `more`; it stands in the replay record of its port; and
the other port's record is as it was (R125, R130, R131, R134). -/
def Answered (h : RequestHeader) (code : Byte) (r : Result) (data : List Byte) (more : List (Message × Port))
    (s t : State) : Prop :=
  let reply : Reply := ⟨s.node, h.tag, code, r, t.summaryByte, data⟩
  entries t.queue = entries s.queue ++ (.reply reply, h.port) :: more ∧
  t.replay = s.replay.set h.port (some ⟨h.tag, code, reply⟩)

/-! ### Conditions, as the claims see them -/

/-- The conditions of a state with what its reply queue holds (R136, R182, R187, R190). -/
structure Conditions where
  latched : KindSet
  pendingNotices : KindSet
  alert : Bool
  entries : List (Message × Port)
  deriving DecidableEq, Repr

/-- See `Conditions`. -/
def State.conditions (s : State) : Conditions := ⟨s.latched, s.pendingNotices, s.alert, entries s.queue⟩

/-- Whether a message is a notice for a kind. -/
def Message.isNoticeOf (k : Condition) : Message → Bool
  | .notice _ j _ => j = k
  | .reply _ => false

/-- A kind not yet latched joins the latched set, and ALERT is low when a latched kind is in the alert mask; a latched
kind changes nothing (R183, R187). Here and below, `s` gives the node and the configuration in force. -/
def Conditions.flag (s : State) (k : Condition) (v : Conditions) : Conditions :=
  if hasKind v.latched k then v
  else
    { v with
      latched := addKind v.latched k
      alert := Condition.all.any fun j => hasKind (addKind v.latched k) j && hasKind s.config.alertMask j }

/-- Whether a latching of a kind offers a notice (R183). -/
def Conditions.owes (s : State) (v : Conditions) (k : Condition) : Bool :=
  !hasKind v.latched k && hasKind s.config.noticeMask k

/-- An offered notice (R189): dropped when one for the kind is queued or pending; otherwise at the tail of the queue for A,
its summary byte formed now; or pending when the queue holds 8. -/
def Conditions.offer (s : State) (k : Condition) (v : Conditions) : Conditions :=
  if hasKind v.pendingNotices k || v.entries.any (·.1.isNoticeOf k) then v
  else if v.entries.length < 8 then
    { v with entries := v.entries ++ [(.notice s.node k { s with latched := v.latched }.summaryByte, .a)] }
  else { v with pendingNotices := addKind v.pendingNotices k }

/-- A latching (R183). -/
def Conditions.latch (s : State) (v : Conditions) (k : Condition) : Conditions :=
  if v.owes s k then (v.flag s k).offer s k else v.flag s k

/-- What a request leaves that latches these kinds, each once: the kinds are flagged, its reply joins, if it is answered,
and then the notices owed are offered (R183). -/
def Conditions.carried (s : State) (ks : List Condition) (reply : List (Message × Port)) (v : Conditions) : Conditions :=
  let w := ks.foldl (fun v k => v.flag s k) v
  (ks.filter (v.owes s)).foldl (fun v k => v.offer s k) { w with entries := w.entries ++ reply }

/-- These kinds latch between two states, in order, and nothing else happens to the conditions and the entries of the
reply queue. -/
def Latches (ks : List Condition) (s t : State) : Prop :=
  (∀ k, hasKind t.latched k = true ↔ hasKind s.latched k = true ∨ k ∈ ks) ∧
  t.conditions = ks.foldl (Conditions.latch s) s.conditions

/-! ### Frames of the claims -/

/-- What the return lines do with the entries that join the reply queue between two states. A return transmitter that is
not FREE goes on, and takes nothing. Where no FREE transmitter had left a frame waiting, the relay FIFO stands, the
entries that stood in the queue stand, and the new ones join behind them WAITING, but that a FREE return transmitter
takes the first for its port at once; the return preference changes only where A-return-tx takes (R15, R137, R139,
R140). -/
def ReturnsServe (s t : State) : Prop :=
  (∀ p, s.tx.get (returnTx p) ≠ .free → t.tx.get (returnTx p) = s.tx.get (returnTx p)) ∧
  (s.tx.a ≠ .free → t.relay = s.relay ∧ t.preference = s.preference) ∧
  (s.NothingWaitsForFree → t.relay = s.relay ∧ ∃ q, t.queue = s.queue ++ q ∧ ∀ p,
    (s.tx.get (returnTx p) ≠ .free ∨ (∀ e ∈ q, e.destination ≠ p) →
      t.tx.get (returnTx p) = s.tx.get (returnTx p) ∧ (p = .a → t.preference = s.preference) ∧
      ∀ e ∈ q, e.destination = p → e.state = .waiting) ∧
    (s.tx.get (returnTx p) = .free → ∀ l e r, q = l ++ e :: r → e.destination = p → (∀ d ∈ l, d.destination ≠ p) →
      e.state = .sending ∧ (∀ d ∈ r, d.destination = p → d.state = .waiting) ∧
      t.tx.get (returnTx p) = .sending e.message.frame (t.now + (e.message.frame.payload.length + 6) * 80) ∧
      (p = .a → t.preference = .relay)))

/-- The two states agree on everything but the receivers, the return transmitters with what they serve, and the replay
records: what taking a request and answering it changes. -/
def OnlyAnswer (s t : State) : Prop :=
  t = { s with
    rx := t.rx
    tx := { s.tx with a := t.tx.a, b := t.tx.b }
    relay := t.relay
    queue := t.queue
    replay := t.replay
    preference := t.preference } ∧
  ReturnsServe s t

/-- As `OnlyAnswer`, and the conditions may differ too. -/
def OnlyAnswerAndConditions (s t : State) : Prop :=
  t = { s with
    rx := t.rx
    tx := { s.tx with a := t.tx.a, b := t.tx.b }
    relay := t.relay
    queue := t.queue
    replay := t.replay
    preference := t.preference
    latched := t.latched
    pendingNotices := t.pendingNotices
    alert := t.alert } ∧
  ReturnsServe s t

/-- The two states agree on everything but the receivers, the conditions, and A-return-tx with what it serves: what an
event that can latch a condition changes beyond its own effect. -/
def OnlyReceiversAndConditions (s t : State) : Prop :=
  t = { s with
    rx := t.rx
    tx := { s.tx with a := t.tx.a }
    relay := t.relay
    queue := t.queue
    preference := t.preference
    latched := t.latched
    pendingNotices := t.pendingNotices
    alert := t.alert } ∧
  ReturnsServe s t

/-- Whether some channel enters SCENE between two states (R57). -/
def EntersScene (s t : State) : Prop :=
  ∃ c : Fin Config.channels, s.targets[c].kind ≠ .scene ∧ t.targets[c].kind = .scene

/-- These kinds latch between two states, in order, and FALLBACK after them when a channel enters SCENE (R57, R183). -/
def LatchesThenFallback (ks : List Condition) (s t : State) : Prop :=
  (EntersScene s t → Latches (ks ++ [.fallback]) s t) ∧ (¬ EntersScene s t → Latches ks s t)

/-- A request that may take channels into SCENE leaves the conditions as FALLBACK latching, or not, with this reply
leaves them (R57, R183). -/
def CarriedWithFallback (s : State) (v : Conditions) (ks : List Condition) (reply : List (Message × Port)) (t : State) :
    Prop :=
  (EntersScene s t → t.conditions = v.carried s (.fallback :: ks) reply) ∧
  (¬ EntersScene s t → t.conditions = v.carried s ks reply)

/-- The receiver of a frame that completed good: SETTLING, its buffer empty, its idle measured from this moment, its
last error kind as it was; the other receivers are as they were (R3, R12, R13). -/
def Settled (r : Receiver) (s t : State) : Prop :=
  (t.rx.get r).phase = .settling ∧ (t.rx.get r).buffer = [] ∧ (t.rx.get r).idleSince = some s.now ∧
  (t.rx.get r).awaitHigh = false ∧ (t.rx.get r).lastError = (s.rx.get r).lastError ∧
  ∀ r', r' ≠ r → t.rx.get r' = s.rx.get r'

/-- A receiver detected a receive error between two states: frame discarded, error recorded, SETTLING, FRAME_ERROR
latched, and the acquire count of its port unit back to 0 in ACQUIRING; nothing else but the time (R11, R12, R23). -/
def ReceiveFailed (r : Receiver) (e : ErrorKind) (s t : State) : Prop :=
  (t.rx.get r).phase = .settling ∧ (t.rx.get r).buffer = [] ∧ (t.rx.get r).lastError = some e ∧
  (∀ r', r' ≠ r → t.rx.get r' = s.rx.get r') ∧
  Latches [.frameError] s t ∧
  (∀ p, t.ports.get p =
    if rxOf p = r ∧ (s.ports.get p).state = .acquiring then { s.ports.get p with acquired := 0 } else s.ports.get p) ∧
  OnlyReceiversAndConditions { s with now := t.now, ports := t.ports } t

/-- The forward path had a frame between two states, beside what the receiver did: discarded while forward enable is
off; discarded with FORWARD_DROP by a full FIFO; otherwise at the tail, or with D-tx when D-tx was free (R115). A forward
enable above 1 counts as off (log entry 8). -/
def Forwarded (f : Frame) (s t : State) : Prop :=
  (s.config.forwardEnable ≠ 1 → t = { s with rx := t.rx }) ∧
  (s.config.forwardEnable = 1 → 4 ≤ s.forward.length →
    Latches [.forwardDrop] s t ∧ OnlyReceiversAndConditions s t) ∧
  (s.config.forwardEnable = 1 → s.forward.length < 4 → s.tx.d ≠ .free →
    t = { s with rx := t.rx, forward := s.forward ++ [f] }) ∧
  (s.config.forwardEnable = 1 → s.forward = [] → s.tx.d = .free → (∀ g, s.output ≠ .waiting g) →
    t = { s with
      rx := t.rx
      tx := { s.tx with d := .sending f (s.now + (f.payload.length + 6) * 80) } })

/-- The same command of the five that are carried out as broadcasts (R129), with one header and with another. -/
def SameForHeaders (h g : RequestHeader) (c d : Instr) : Prop :=
  (∃ first count level profile extra,
    c = .force h first count level profile extra ∧ d = .force g first count level profile extra) ∨
  (∃ first count extra, c = .release h first count extra ∧ d = .release g first count extra) ∨
  (∃ scene extra, c = .saveScene h scene extra ∧ d = .saveScene g scene extra) ∨
  (∃ kinds extra, c = .ackConditions h kinds extra ∧ d = .ackConditions g kinds extra) ∨
  (∃ extra, c = .restart h extra ∧ d = .restart g extra)

/-- A LEVEL frame at a port. -/
def levelCommand : Port → LevelFrame → Instr
  | .a => .levelFrameA
  | .b => .levelFrameB

/-- Whether a LEVEL frame at a port changes the level of the valid slot that a source names (R47). -/
def MovesSource (p : Port) (f : LevelFrame) (s : State) (src : Option Source) : Prop :=
  ∃ i v, src = some ⟨p, i⟩ ∧ f.first.toNat ≤ i.val ∧ f.levels[i.val - f.first.toNat]? = some v ∧
    (s.ports.get p).slots[i].valid = true ∧ (s.ports.get p).slots[i].level ≠ v

/-- Whether a source is on a port. -/
def OnPort (p : Port) (src : Option Source) : Prop := ∃ i, src = some ⟨p, i⟩

/-- A port's slots with every valid flag clear and the levels kept (R22). -/
def Invalidated (before after : Vector Slot Config.channels) : Prop :=
  ∀ i : Fin Config.channels, after[i] = ⟨before[i].level, false⟩

/-- An entry of a table as carried: of a bank, or of the scene store by scene × 384 + channel (R99, R150, R151). -/
def heldEntry (tbl : TableName) (b : Bank) (scenes : Vector (Vector Level Config.channels) 4) (i : Nat) :
    Option (List Byte) :=
  match tbl with
  | .config => if i = 0 then some b.config.bytes else none
  | .map => b.map[i]?.map MapEntry.bytes
  | .profiles => b.profiles[i]?.map ProfileRecord.bytes
  | .curves => b.curves[i]?.map curveBytes
  | .scenes => scenes[i / 384]?.bind fun x => x[i % 384]?.map bytes16

/-- Bytes are `count` entries of a table in index order from an index, each as held (R176). -/
def AreEntries (tbl : TableName) (b : Bank) (scenes : Vector (Vector Level Config.channels) 4) (index count : Nat)
    (bytes : List Byte) : Prop :=
  ∃ records : List (List Byte), bytes = records.flatten ∧ records.length = count ∧
    ∀ i, i < count → records[i]? = heldEntry tbl b scenes (index + i)

/-- The reason is that of the first check of a list that fails, and there is none when every check passes (R165). -/
def FirstFails : List (Prop × FailureReason) → Option FailureReason → Prop
  | [], found => found = none
  | (fails, reason) :: rest, found => (fails → found = some reason) ∧ (¬ fails → FirstFails rest found)

/-- One place of a shift register: shifted left, the bit out of the top dropped, and where that bit was 1 the polynomial
combined by exclusive-or (R8, R164). -/
def shiftedPlace {n : Nat} (poly r : BitVec n) : BitVec n :=
  (r <<< 1) ^^^ (if r.getLsbD (n - 1) = true then poly else 0)

/-- The CRC-16 is the one of R8: from 0xFFFF, each byte into the upper eight bits, eight places of 0x1021. -/
def Crc16AsGiven : Prop :=
  ∀ l : List Byte, crc16 l =
    l.foldl (fun (r : BitVec 16) (b : Byte) => (shiftedPlace 0x1021#16)^[8] (r ^^^ (b.setWidth 16 <<< 8))) 0xFFFF#16

/-- The CRC-32 is the one of R164: from 0xFFFFFFFF, each byte into the upper eight bits, eight places of 0x04C11DB7, every
bit inverted at the end. -/
def Crc32AsGiven : Prop :=
  ∀ l : List Byte, crc32 l =
    0xFFFFFFFF#32 ^^^
      l.foldl (fun (r : BitVec 32) (b : Byte) => (shiftedPlace 0x04C11DB7#32)^[8] (r ^^^ (b.setWidth 32 <<< 24))) 0xFFFFFFFF#32

/-- The bank that the blocks read is the one the active bank number names, the shadow the other; and the code, the number of
entries, the most entries of one request and the bytes of an entry of each table (R150). -/
def TablesAsGiven : Prop :=
  (∀ s : State, s.config = s.activeBank.config ∧
    (s.active = .bank0 → s.activeBank = s.banks.bank0 ∧ s.shadowBank = s.banks.bank1) ∧
    (s.active = .bank1 → s.activeBank = s.banks.bank1 ∧ s.shadowBank = s.banks.bank0)) ∧
  ∀ tbl : TableName, (tbl.code, tbl.entries, tbl.perRequest, tbl.entrySize) =
    match tbl with
    | .config => ((0 : Byte), 1, 1, 32)
    | .map => (1, 384, 32, 6)
    | .profiles => (2, 16, 8, 24)
    | .curves => (3, 8, 4, 34)
    | .scenes => (4, 1536, 64, 2)

/-! ### Layouts and encodings, as chapter 10 gives them -/

/-- The bytes of a field at an offset. -/
def fieldAt (l : List Byte) (offset size : Nat) : List Byte := (l.drop offset).take size

/-- Fields of several bytes are carried most significant byte first (R197). -/
def BytesAsGiven : Prop :=
  (∀ x : BitVec 16, bytes16 x = [x.toNat / 256, x.toNat].map (BitVec.ofNat 8)) ∧
  (∀ x : BitVec 24, bytes24 x = [x.toNat / 65536, x.toNat / 256, x.toNat].map (BitVec.ofNat 8)) ∧
  (∀ x : BitVec 32, bytes32 x =
    [x.toNat / 16777216, x.toNat / 65536, x.toNat / 256, x.toNat].map (BitVec.ofNat 8)) ∧
  (∀ l : List (BitVec 16), bytesOfHalves l = l.flatMap bytes16)

/-- The layout of the configuration record (R210). -/
def ConfigAsGiven (c : ConfigRecord) : Prop :=
  c.bytes.length = 32 ∧
  fieldAt c.bytes 0 4 = [c.outputStream, c.accepted.a, c.accepted.b, c.reserved3] ∧
  fieldAt c.bytes 4 2 = bytes16 c.outputLength ∧
  fieldAt c.bytes 6 2 = [c.refreshPeriod, c.tickPeriod] ∧
  fieldAt c.bytes 8 4 = [c.lossTime.a, c.lossTime.b, c.holdTime.a, c.holdTime.b] ∧
  fieldAt c.bytes 12 3 = [c.acquireCount, c.fallbackScene, c.fallbackProfile] ∧
  fieldAt c.bytes 15 3 = [c.sessionTimeout, c.forwardEnable, c.summaryLength] ∧
  (∀ i : Fin 8, fieldAt c.bytes (18 + i.val) 1 = [c.summary[i]]) ∧
  fieldAt c.bytes 26 2 = bytes16 c.alertMask ∧
  fieldAt c.bytes 28 2 = bytes16 c.noticeMask ∧
  fieldAt c.bytes 30 2 = bytes16 c.reserved30

/-- The layout of a map entry (R211). -/
def MapAsGiven (e : MapEntry) : Prop :=
  e.bytes.length = 6 ∧
  (fieldAt e.bytes 0 1).map BitVec.toNat = [32 * e.rule.toNat + e.profile.toNat] ∧
  (fieldAt e.bytes 1 1).map BitVec.toNat = [16 * e.curve.toNat + 2 * e.reserved.toNat + e.hold.toNat] ∧
  fieldAt e.bytes 2 2 = bytes16 e.source1 ∧
  fieldAt e.bytes 4 2 = bytes16 e.source2

/-- The layout of a profile record (R212). -/
def ProfileAsGiven (r : ProfileRecord) : Prop :=
  r.bytes.length = 24 ∧
  fieldAt r.bytes 0 2 = [r.kind, r.reserved1] ∧
  fieldAt r.bytes 2 3 = bytes24 r.startRate ∧
  fieldAt r.bytes 5 3 = bytes24 r.breakRate ∧
  fieldAt r.bytes 8 3 = bytes24 r.maxRate ∧
  fieldAt r.bytes 11 2 = bytes16 r.accelLow ∧
  fieldAt r.bytes 13 2 = bytes16 r.accelHigh ∧
  fieldAt r.bytes 15 2 = bytes16 r.decelHigh ∧
  fieldAt r.bytes 17 2 = bytes16 r.decelLow ∧
  fieldAt r.bytes 19 3 = bytes24 r.floorRate ∧
  fieldAt r.bytes 22 2 = bytes16 r.reserved22

/-- The layout of a curve record (R213). -/
def CurveAsGiven (y : CurveRecord) : Prop :=
  (curveBytes y).length = 34 ∧ ∀ k : Fin 17, fieldAt (curveBytes y) (2 * k.val) 2 = bytes16 y[k]

/-- The layouts of the table entries (R197, R210 to R213). -/
def LayoutsAsGiven : Prop :=
  BytesAsGiven ∧ (∀ c, ConfigAsGiven c) ∧ (∀ e, MapAsGiven e) ∧ (∀ r, ProfileAsGiven r) ∧ ∀ y, CurveAsGiven y

/-- The image of a bank: where each entry begins (R151). -/
def ImageAsGiven (b : Bank) : Prop :=
  b.image.length = 2992 ∧
  fieldAt b.image 0 32 = b.config.bytes ∧
  (∀ n : Fin 384, fieldAt b.image (32 + 6 * n.val) 6 = b.map[n].bytes) ∧
  (∀ n : Fin 16, fieldAt b.image (2336 + 24 * n.val) 24 = b.profiles[n].bytes) ∧
  (∀ n : Fin 8, fieldAt b.image (2720 + 34 * n.val) 34 = curveBytes b.curves[n])

/-- A bank holds the default program set (R52, R152, R154, default column of R210). -/
def HoldsDefaults (b : Bank) : Prop :=
  b.config =
    { outputStream := 0, accepted := ⟨0, 1⟩, reserved3 := 0, outputLength := 384, refreshPeriod := 25, tickPeriod := 2
      lossTime := ⟨100, 100⟩, holdTime := ⟨30, 30⟩, acquireCount := 3, fallbackScene := 0xFF, fallbackProfile := 0
      sessionTimeout := 5, forwardEnable := 1, summaryLength := 8, summary := #v[0, 1, 6, 8, 9, 10, 11, 12]
      alertMask := 0, noticeMask := 0, reserved30 := 0 } ∧
  (∀ i : Fin Config.channels, b.map[i].rule = 1 ∧ b.map[i].profile = 0 ∧ b.map[i].curve = 0 ∧
    b.map[i].hold = 0 ∧ b.map[i].sources = (some ⟨.a, i⟩, none) ∧
    b.map[i].bytes = [0x20, 0x00] ++ bytes16 (BitVec.ofNat 16 (0x8000 + i.val)) ++ [0x00, 0x00]) ∧
  (∀ i : Fin 16, b.profiles[i] = ⟨0, 0, 0, 0, 0, 0, 0, 0, 0, 0, 0⟩) ∧
  (∀ (i : Fin 8) (k : Fin 17), b.curves[i][k].toNat = if k.val = 16 then 65535 else 4096 * k.val)

/-- The optional and the enumerated fields of the tables, read: a present source has bit 15 set, the port in bits 14 to 9 and
the slot in bits 8 to 0; a curve id names the entry of the id less 1; 0xFF is no fallback scene (R150, R211, R214). What the
fields give with values that verification refuses is log entry 8. -/
def FieldsReadAsGiven : Prop :=
  (∀ e : MapEntry,
    (e.source1.toNat < 32768 → e.sources.1 = none) ∧ (e.source2.toNat < 32768 → e.sources.2 = none) ∧
    (∀ (p : Port) (i : Fin Config.channels),
      (e.source1.toNat = 32768 + 512 * (if p = .a then 0 else 1) + i.val → e.sources.1 = some ⟨p, i⟩) ∧
      (e.source2.toNat = 32768 + 512 * (if p = .a then 0 else 1) + i.val → e.sources.2 = some ⟨p, i⟩)) ∧
    (e.curve = 0 → e.curveIndex = none) ∧
    (∀ k : Fin 8, e.curve.toNat = k.val + 1 → e.curveIndex = some k)) ∧
  (∀ c : ConfigRecord, (c.fallbackScene = 0xFF → c.fallback = none) ∧
    ∀ f : Fin 4, c.fallbackScene.toNat = f.val → c.fallback = some f) ∧
  (∀ n : Fin 16, profileId n.val = n)

/-- The numbers of the kinds, their places in a set, and the kinds of each port (R182, R197). -/
def KindsAsGiven : Prop :=
  (∀ k : Condition, k.number = match k with
    | .lossA => 0 | .lossB => 1 | .releaseA => 2 | .releaseB => 3 | .restoreA => 4 | .restoreB => 5 | .frameError => 6
    | .streamClash => 7 | .fallback => 8 | .sessionExpired => 9 | .commitDone => 10 | .commitFailed => 11
    | .replyOverflow => 12 | .forwardDrop => 13 | .relayDrop => 14 | .paused => 15) ∧
  (∀ (set : KindSet) (k : Condition), hasKind set k = set.getLsbD k.number) ∧
  (∀ p : Port, (Condition.loss p, Condition.releaseOf p, Condition.restore p) =
    match p with
    | .a => (.lossA, .releaseA, .restoreA)
    | .b => (.lossB, .releaseB, .restoreB))

/-- The codes of the known commands with their fixed argument bytes (R204). -/
def commandCodes : List (Byte × Nat) :=
  [(0x01, 0), (0x02, 0), (0x03, 3), (0x04, 4), (0x05, 5), (0x10, 2), (0x11, 6), (0x12, 6), (0x13, 2), (0x20, 7), (0x21, 4),
    (0x22, 1), (0x30, 2), (0x31, 0)]

/-- The largest payload of a kind (R5). -/
def payloadLimit (kind : Byte) : Nat := if kind = 0x10 ∨ kind = 0x11 ∨ kind = 0x12 then 256 else 774

/-- A REQUEST frame with the receiver it completes at (R200). -/
def requestAsGiven (h : RequestHeader) (code : Byte) (args : List Byte) : Option (Receiver × Frame) :=
  some (if h.port = .a then .aRx else .bRx, ⟨0x10, [h.destination, h.tag, code, h.reserved] ++ args⟩)

/-- A LEVEL frame (R199). -/
def levelAsGiven (f : LevelFrame) : Frame :=
  ⟨0x01, [f.stream.setWidth 8, f.sequence] ++ bytes16 f.first ++ bytes16 (BitVec.ofNat 16 f.levels.length) ++
    f.levels.flatMap bytes16⟩

/-- The frame of each command that is a frame (R199, R200, R204). -/
def frameAsGiven : Instr → Option (Receiver × Frame)
  | .levelFrameA f => some (.aRx, levelAsGiven f)
  | .levelFrameB f => some (.bRx, levelAsGiven f)
  | .forwardFrame f => some (.aRx, f)
  | .bFrameDiscarded f => some (.bRx, f)
  | .relayFrame f => some (.dReturnRx, f)
  | .requestNotTaken h code args => requestAsGiven h code args
  | .badCommand h code args => requestAsGiven h code args
  | .identify h extra => requestAsGiven h 0x01 extra
  | .readStatus h extra => requestAsGiven h 0x02 extra
  | .readChannels h first count extra => requestAsGiven h 0x03 (bytes16 first ++ [count] ++ extra)
  | .readInputs h port first count extra => requestAsGiven h 0x04 ([port] ++ bytes16 first ++ [count] ++ extra)
  | .readTable h bank table index count extra =>
    requestAsGiven h 0x05 ([bank, table] ++ bytes16 index ++ [count] ++ extra)
  | .openSession h token extra => requestAsGiven h 0x10 (bytes16 token ++ extra)
  | .writeTable h token table index count bytes =>
    requestAsGiven h 0x11 (bytes16 token ++ [table] ++ bytes16 index ++ [count] ++ bytes)
  | .commit h token expected extra => requestAsGiven h 0x12 (bytes16 token ++ bytes32 expected ++ extra)
  | .abortSession h token extra => requestAsGiven h 0x13 (bytes16 token ++ extra)
  | .force h first count level profile extra =>
    requestAsGiven h 0x20 (bytes16 first ++ bytes16 count ++ bytes16 level ++ [profile] ++ extra)
  | .release h first count extra => requestAsGiven h 0x21 (bytes16 first ++ bytes16 count ++ extra)
  | .saveScene h scene extra => requestAsGiven h 0x22 (scene :: extra)
  | .ackConditions h kinds extra => requestAsGiven h 0x30 (bytes16 kinds ++ extra)
  | .restart h extra => requestAsGiven h 0x31 extra
  | .hardReset | .resetRelease _ _ _ _ | .pauseAssert | .pauseRelease | .interFrameIdle _ | .truncated _
  | .receiveError _ _ | .fadeTick | .refreshExpiry | .lossExpiry _ | .holdExpiry _ | .sessionExpiry
  | .verificationComplete | .copyComplete | .transmitComplete _ | .gapEnd _ | .characterReceived _ _
  | .lineReturnHigh _ => none

/-- What a frame must meet beyond its largest payload to be the command it stands for (R10, R13, R134, R204). -/
def MeetsChecks : Instr → Prop
  | .levelFrameA f | .levelFrameB f => 1 ≤ f.levels.length ∧ f.first.toNat + f.levels.length ≤ 384
  | .forwardFrame f | .bFrameDiscarded f => f.kind ≠ 0x01 ∧ f.kind ≠ 0x10
  | .requestNotTaken h code args => h.destination ≠ 0 ∧ ∀ n, (code, n) ∈ commandCodes → n ≤ args.length
  | .badCommand _ code _ => ∀ n, (code, n) ∉ commandCodes
  | _ => True

/-- The frames of the commands, their parts and their checks are those of chapters 1 and 10 (R5, R10, R197 to R200, R204). -/
def FramesAsGiven : Prop :=
  BytesAsGiven ∧ (∀ i, encodeFrame i = frameAsGiven i) ∧
  (∀ i h code args, requestParts i = some (h, code, args) → frameAsGiven i = requestAsGiven h code args) ∧
  (∀ i r f, frameAsGiven i = some (r, f) →
    (i.wellFormed = true ↔ f.payload.length ≤ payloadLimit f.kind ∧ MeetsChecks i)) ∧
  (∀ kind, maxPayload kind = payloadLimit kind) ∧
  (∀ f : Frame, f.lengthOk = true ↔ f.payload.length ≤ payloadLimit f.kind) ∧
  (∀ code, (Command.ofCode code).isSome = true ↔ ∃ n, (code, n) ∈ commandCodes)

/-- The characters of a frame, in order, and the samples of a character (R1, R4, R16). -/
def CharactersAsGiven : Prop :=
  (∀ f : Frame, frameCharacters f = [0xC3, f.kind] ++ bytes16 (BitVec.ofNat 16 f.payload.length) ++ f.payload ++
    bytes16 (crc16 (f.kind :: bytes16 (BitVec.ofNat 16 f.payload.length) ++ f.payload))) ∧
  (∀ b : Byte, (goodCharacter b).getLsbD 0 = false ∧ (goodCharacter b).getLsbD 9 = true ∧
    ∀ i, i < 8 → (goodCharacter b).getLsbD (i + 1) = b.getLsbD i)

/-- Whether a channel depends on what an accepted frame at a port reports: a source on the port, with its slot in the change
set of the frame, or with any slot when the port state changed (R20, R21, R58). -/
def Concerned (p : Port) (f : LevelFrame) (before : PortUnit) (after : PortState) (e : MapEntry) : Prop :=
  ∃ i : Fin Config.channels, (e.sources.1 = some ⟨p, i⟩ ∨ e.sources.2 = some ⟨p, i⟩) ∧
    (after ≠ before.state ∨ ∃ v, f.first.toNat ≤ i.val ∧ f.levels[i.val - f.first.toNat]? = some v ∧
      (before.slots[i].valid = false ∨ before.slots[i].level ≠ v))

/-- Characters, each good, received one after another at a receiver, by CHARACTER_RECEIVED. -/
def receiveAll (rx : Receiver) : List Byte → State → Host.Outcome State Fault Refusal
  | [], s => .next s
  | b :: bs, s =>
    match exec (.characterReceived rx (goodCharacter b)) s with
    | .next t => receiveAll rx bs t
    | .fault f => .fault f
    | .refused r => .refused r

/-- A context advanced by a number of ticks under one profile record, its aim as it stands (R71). -/
def fadeFor (r : ProfileRecord) : Nat → FadeContext → FadeContext
  | 0, x => x
  | n + 1, x => fadeFor r n (profileStep r x)

end Sys2Proof.Machine
end

