-- ==== Sys2Proof/Certificates/Slice0/Obligations.lean ====
section
/-! DEFINITION. The statements for the provers, chapter by chapter. -/

section

open Sys2Proof Sys2Proof.Machine

/-! ## The step, the two resets and the PAUSE line -/

/-- One step with a command waiting is that command on the state with the rest of the queue. -/
def Obligations.StepRunsFrontCommand : Prop :=
  ∀ (s : State) (c : Instr) (rest : List Instr), s.pending = c :: rest →
    step s = exec c { s with pending := rest }

/-- With no command waiting, the clock advances by one period, or one of the part's own events that are due waits as the
next command. The own events and their instants are those of the timers, of a verification or copy under way and of the
transmitters that send or are in GAP (R15, R24, R68, R107, R161, R163, R173). The model's choice (log entries 1, 3 and
4). -/
def Obligations.StepWithNothingWaiting : Prop :=
  ∀ s : State, s.pending = [] →
    (dueEvents s = [] → step s = .next { s with now := s.now + 1 }) ∧
    (∀ c, dueEvents s = [c] → step s = .next { s with pending := [c] }) ∧
    (2 ≤ (dueEvents s).length →
      ∃ c ∈ dueEvents s, step s = .next { s with pending := [c], choices := s.choices + 1 }) ∧
    (∀ c, c ∈ dueEvents s ↔ ∃ n, n ≤ s.now ∧ (some n, c) ∈ ownEvents s) ∧
    (∀ n c, (some n, c) ∈ ownEvents s ↔
      (c = .fadeTick ∧ s.tickAt = some n) ∨ (c = .refreshExpiry ∧ s.refreshAt = some n) ∨
      (∃ p, c = .lossExpiry p ∧ (s.ports.get p).lossAt = some n) ∨
      (∃ p, c = .holdExpiry p ∧ (s.ports.get p).holdAt = some n) ∨
      (c = .sessionExpiry ∧ ∃ o, s.session = .opened o n) ∨
      (c = .verificationComplete ∧ ∃ o k since, s.session = .verifying o k since ∧
        n = since + 1 + Config.workTime since % 20000) ∨
      (c = .copyComplete ∧ ∃ since, s.session = .copying since ∧ n = since + 1 + Config.workTime since % 20000) ∨
      (∃ x f, c = .transmitComplete x ∧ s.tx.get x = .sending f n) ∨
      (∃ x, c = .gapEnd x ∧ s.tx.get x = .gap (some n)))

/-- HARD_RESET leaves every block as its chapter gives for a hard reset, both banks with the default program set, the
timers and transmitters stopped, and the PAUSE state as the level of the line (R17, R37, R52, R62, R88, R91, R96, R120,
R131, R140, R152, R154, R179, R194). That the node address stands while RESET is asserted, and what a receiver's fields
hold then, is the model's choice (log entry 10). -/
def Obligations.HardResetSetsEveryBlock : Prop :=
  ∀ s : State, ∃ t, exec .hardReset s = .next t ∧
    t.inReset = true ∧
    (∀ x, t.tx.get x = .gap none) ∧
    (∀ r, (t.rx.get r).phase = .settling ∧ (t.rx.get r).buffer = [] ∧ (t.rx.get r).lastError = none) ∧
    (∀ p, (t.ports.get p).state = .silent ∧ (t.ports.get p).acquired = 0 ∧ (t.ports.get p).lossAt = none ∧
      (t.ports.get p).holdAt = none ∧ (t.ports.get p).lastSequence = 0 ∧
      ∀ i : Fin Config.channels, (t.ports.get p).slots[i] = ⟨0, false⟩) ∧
    (∀ c : Fin Config.channels, t.targets[c] = ⟨0, 0, .held, .nobody⟩ ∧ t.parks[c] = ⟨false, 0, none⟩ ∧
      t.fades[c] = ⟨0, 0, .up, .idle, 0, 0⟩) ∧
    t.tickAt = none ∧ t.refreshAt = none ∧
    (∀ (f : Fin 4) (c : Fin Config.channels), t.scenes[f][c] = 0) ∧
    t.output = .empty ∧ t.nextSequence = 0 ∧ t.missed = 0 ∧ t.forward = [] ∧ t.relay = [] ∧
    t.queue = [] ∧ t.replay = ⟨none, none⟩ ∧ t.preference = .replies ∧
    t.banks = ⟨.default, .default⟩ ∧ HoldsDefaults t.banks.bank0 ∧ HoldsDefaults t.banks.bank1 ∧
    t.active = .bank0 ∧ t.checksum = crc32 Bank.default.image ∧
    t.session = .noSession ∧ t.pointer = ⟨.config, 0⟩ ∧ t.outcome = .never ∧
    t.latched = 0 ∧ t.pendingNotices = 0 ∧ t.alert = false ∧
    t.pause = s.pause ∧ t.node = s.node ∧ t.now = s.now ∧ t.pending = s.pending

/-- Commands for events that cannot occur leave the state as it is: while RESET is asserted, every command but the resets
and the PAUSE edges; and, at any time, the expiry of a timer that is stopped, the completion of work that is not under
way, a completion or a gap's end at a transmitter that is not SENDING or not in GAP, an idle that is not measured, a line
that is not awaited, a release of RESET or an assertion of PAUSE that is no change, and a FORMAT error where no payload
is checked. That receivers, transmitters and timers do nothing under RESET is R14, R17, R24, R68, R107 and R179; that such
an event is a command without effect is the model's choice (log entry 5). -/
def Obligations.EventsThatCannotOccurChangeNothing : Prop :=
  (∀ (c : Instr) (s : State), s.inReset = true →
    c ≠ .hardReset → (∀ straps a b d, c ≠ .resetRelease straps a b d) → c ≠ .pauseAssert → c ≠ .pauseRelease →
    exec c s = .next s) ∧
  (∀ s : State,
    (s.inReset = false → ∀ straps a b d, exec (.resetRelease straps a b d) s = .next s) ∧
    (s.pause = true → exec .pauseAssert s = .next s) ∧
    (s.tickAt = none → exec .fadeTick s = .next s) ∧
    (s.refreshAt = none → exec .refreshExpiry s = .next s) ∧
    (∀ p, (s.ports.get p).lossAt = none → exec (.lossExpiry p) s = .next s) ∧
    (∀ p, (s.ports.get p).holdAt = none → exec (.holdExpiry p) s = .next s) ∧
    ((∀ o n, s.session ≠ .opened o n) → exec .sessionExpiry s = .next s) ∧
    ((∀ o k n, s.session ≠ .verifying o k n) → exec .verificationComplete s = .next s) ∧
    ((∀ n, s.session ≠ .copying n) → exec .copyComplete s = .next s) ∧
    (∀ x, (∀ f n, s.tx.get x ≠ .sending f n) → exec (.transmitComplete x) s = .next s) ∧
    (∀ x, (∀ n, s.tx.get x ≠ .gap (some n)) → exec (.gapEnd x) s = .next s) ∧
    (∀ r, (s.rx.get r).phase ≠ .settling ∨ (s.rx.get r).idleSince = none → exec (.interFrameIdle r) s = .next s) ∧
    (∀ r, (s.rx.get r).phase ≠ .receiving ∨ (s.rx.get r).idleSince = none → exec (.truncated r) s = .next s) ∧
    (∀ r, (s.rx.get r).awaitHigh = false → exec (.lineReturnHigh r) s = .next s) ∧
    exec (.receiveError .dReturnRx .format) s = .next s)

/-- RESET_RELEASE starts the receivers, the transmitters' gap and the two timers, with the default periods of 1 ms and
25 ms, and takes PAUSE: an asserted line latches PAUSED, which the empty masks of the default set give neither ALERT nor
a notice (R3, R14, R17, R68, R107, R194). -/
def Obligations.ResetReleaseStartsThePart : Prop :=
  ∀ (straps : BitVec 6) (a b d : Bool) (s : State), s.inReset = true → s.DefaultsUnderReset →
    ∃ t, exec (.resetRelease straps a b d) s = .next t ∧
      t.inReset = false ∧
      (∀ r, (t.rx.get r).phase = .settling ∧ (t.rx.get r).buffer = [] ∧ (t.rx.get r).lastError = none) ∧
      t.rx.a.idleSince = (if a then some s.now else none) ∧ t.rx.a.awaitHigh = !a ∧
      t.rx.b.idleSince = (if b then some s.now else none) ∧ t.rx.b.awaitHigh = !b ∧
      t.rx.d.idleSince = (if d then some s.now else none) ∧ t.rx.d.awaitHigh = !d ∧
      (∀ x, t.tx.get x = .gap (some (s.now + 240))) ∧
      t.tickAt = some (s.now + 20000) ∧
      t.refreshAt = some (s.now + 500000) ∧
      Latches (if s.pause then [.paused] else []) s t ∧
      (∀ k, hasKind t.latched k = true ↔ hasKind s.latched k = true ∨ (s.pause = true ∧ k = .paused)) ∧
      (s.alert = false → t.alert = false) ∧
      t = { s with
        inReset := false
        rx := t.rx
        tx := t.tx
        node := t.node
        tickAt := t.tickAt
        refreshAt := t.refreshAt
        latched := t.latched
        alert := t.alert }

/-- The node address is the straps' value at the release of RESET, 0 read as 63, and no other command changes it (R127).
That HARD_RESET leaves it is the model's choice (log entry 10), and so is that a release while RESET is not asserted
changes nothing (log entry 5). -/
def Obligations.NodeAddressIsReadAtRelease : Prop :=
  (∀ (straps : BitVec 6) (a b d : Bool) (s : State), s.inReset = true →
    ∃ t, exec (.resetRelease straps a b d) s = .next t ∧
      t.node.toNat = if straps.toNat = 0 then 63 else straps.toNat) ∧
  (∀ (c : Instr) (s t : State), exec c s = .next t →
    ((∀ straps a b d, c ≠ .resetRelease straps a b d) ∨ s.inReset = false) → t.node = s.node)

/-- PAUSE_ASSERT sets the PAUSE state and latches PAUSED, with ALERT and the notice that a latching gives, which it does not
while RESET is asserted; PAUSE_RELEASE clears the PAUSE state and changes nothing else (R183, R184, R187, R189, R194).
That the fade engine takes the edge at the same event is the model's choice (log entry 18). -/
def Obligations.PauseFollowsItsLine : Prop :=
  ∀ s : State,
    (s.inReset = false → s.pause = false → ∃ t, exec .pauseAssert s = .next t ∧ t.pause = true ∧ t.rx = s.rx ∧
      Latches [.paused] s t ∧ OnlyReceiversAndConditions { s with pause := true } t) ∧
    (s.inReset = true → exec .pauseAssert s = .next { s with pause := true }) ∧
    exec .pauseRelease s = .next { s with pause := false }

/-! ## Receivers and frames -/

/-- INTER_FRAME_IDLE takes a receiver from SETTLING to HUNTING 12 µs after its idle began, and LINE_RETURN_HIGH starts the
idle measurement of a receiver that waits for a high line. CHARACTER_RECEIVED: a false start and a character while the
line is awaited high leave everything as it was. The leading edge of any other character ends the idle: an idle that has
passed 8 µs in RECEIVING, or reached 12 µs in SETTLING, has its effect first. Then, in SETTLING a character is discarded;
in HUNTING a good 0xC3 starts a frame and any other character returns the receiver to SETTLING; in RECEIVING a bad
character is a CHARACTER error (R1, R2, R3, R6, R9). The clock, the instant of the edge before the stop-bit sample and
the earliest next edge are the model's choice (log entries 1 and 11), and so are the buffer, CRC and count of a receiver
that returns to SETTLING (log entry 10). -/
def Obligations.ReceiversWaitForAFrame : Prop :=
  (∀ (r : Receiver) (s : State), s.inReset = false →
     (∀ n, (s.rx.get r).phase = .settling → (s.rx.get r).idleSince = some n →
       exec (.interFrameIdle r) s =
         .next { s with now := max s.now (n + 240), rx := s.rx.set r { s.rx.get r with
           phase := .hunting, edgeFrom := max (s.rx.get r).edgeFrom (n + 240) } }) ∧
     ((s.rx.get r).awaitHigh = true →
       exec (.lineReturnHigh r) s =
         .next { s with rx := s.rx.set r { s.rx.get r with
           awaitHigh := false, idleSince := some s.now, edgeFrom := s.now } })) ∧
  (∀ (r : Receiver) (w : BitVec 10) (s : State) (x : Rx) (sample : Nat), s.inReset = false → x = s.rx.get r →
     sample = max s.now (x.edgeFrom + 76) →
     (w.getLsbD 0 = true ∨ x.awaitHigh = true → exec (.characterReceived r w) s = .next s) ∧
     (w.getLsbD 0 = false → x.awaitHigh = false →
       (∀ n, x.idleSince = some n → x.phase = .settling → n + 240 + 76 ≤ sample →
         ∃ t, exec (.interFrameIdle r) s = .next t ∧
           exec (.characterReceived r w) s = exec (.characterReceived r w) t) ∧
       (∀ n, x.idleSince = some n → x.phase = .receiving → n + 160 + 76 < sample →
         ∃ t, exec (.truncated r) s = .next t ∧
           exec (.characterReceived r w) s = exec (.characterReceived r w) t) ∧
       ((∀ n, x.idleSince = some n →
           (x.phase = .settling → sample < n + 240 + 76) ∧ (x.phase = .receiving → sample ≤ n + 160 + 76)) →
         (w.getLsbD 9 = true → x.phase = .settling →
           exec (.characterReceived r w) s = .next { s with
             now := sample, rx := s.rx.set r { x with idleSince := some sample, edgeFrom := sample + 4 } }) ∧
         (w.getLsbD 9 = true → x.phase = .hunting →
           exec (.characterReceived r w) s = .next { s with now := sample, rx := s.rx.set r {
             phase := if w.extractLsb' 1 8 = 0xC3 then .receiving else .settling
             buffer := []
             crc := 0xFFFF
             expected := none
             crcFirst := none
             lastError := x.lastError
             awaitHigh := false
             idleSince := some sample
             edgeFrom := sample + 4 } }) ∧
         (w.getLsbD 9 = false → x.phase ≠ .receiving →
           ∃ y : Rx, exec (.characterReceived r w) s = .next { s with now := sample, rx := s.rx.set r y } ∧
             y.phase = .settling ∧ y.awaitHigh = true ∧ y.idleSince = none ∧ y.lastError = x.lastError) ∧
         (w.getLsbD 9 = false → x.phase = .receiving →
           ∃ t, exec (.characterReceived r w) s = .next t ∧ t.now = sample ∧ ReceiveFailed r .character s t ∧
             (t.rx.get r).awaitHigh = true ∧ (t.rx.get r).idleSince = none))))

/-- RECEIVE_ERROR at each receiver, of each kind the receiver can detect, and TRUNCATED in RECEIVING 8 µs after the idle
began, have the effects of a receive error, and the kind recorded is the error's own: CHARACTER, LENGTH, CRC, FORMAT or
TRUNCATED (R3, R9 to R12, R23). -/
def Obligations.ReceiveErrorsDiscardTheFrame : Prop :=
  (∀ (r : Receiver) (e : DetectedError) (s : State), s.inReset = false → ¬ (r = .dReturnRx ∧ e = .format) →
     ∃ t, exec (.receiveError r e) s = .next t ∧ t.now = s.now ∧
       ReceiveFailed r (match e with
         | .character => .character | .length => .length | .crc => .crc | .format => .format) s t ∧
       (t.rx.get r).awaitHigh = decide (e = .character) ∧
       (t.rx.get r).idleSince = if e = .character then none else some s.now) ∧
  (∀ (r : Receiver) (n : Nat) (s : State), s.inReset = false →
     (s.rx.get r).phase = .receiving → (s.rx.get r).idleSince = some n →
     ∃ t, exec (.truncated r) s = .next t ∧ t.now = max s.now (n + 160) ∧
       ReceiveFailed r .truncated s t ∧ (t.rx.get r).idleSince = some n)

/-- The CRC-16 is the one of R8, and the characters and their samples are those of R1 and R4. The characters of a
frame, taken back to back by a receiver that hunts, have together the effect of the one command the frame is, or of the
receive error it is: sync, kind, length, payload and CRC. With another CRC than the frame's they are a CRC error, and a
length above the largest of the kind is a LENGTH error at the second length character (R1, R4, R6, R7, R8, R10, R11,
R13). The instants are those of log entry 11. -/
def Obligations.CharactersMakeTheFrame : Prop :=
  Crc16AsGiven ∧ CharactersAsGiven ∧
  ∀ (r : Receiver) (s : State) (first : Nat), s.inReset = false → (s.rx.get r).phase = .hunting →
    (s.rx.get r).awaitHigh = false → first = max s.now ((s.rx.get r).edgeFrom + 76) →
    (∀ f : Frame, f.lengthOk = true →
      (match decodeFrame s.node r f with
       | .ok c => receiveAll r (frameCharacters f) s = exec c { s with now := first + 80 * (f.payload.length + 5) }
       | .error e => receiveAll r (frameCharacters f) s =
           exec (.receiveError r e) { s with now := first + 80 * (f.payload.length + 5) }) ∧
      ∀ x : Crc16, x ≠ crc16 (f.kind :: bytes16 (BitVec.ofNat 16 f.payload.length) ++ f.payload) →
        receiveAll r ([0xC3, f.kind] ++ bytes16 (BitVec.ofNat 16 f.payload.length) ++ f.payload ++ bytes16 x) s =
          exec (.receiveError r .crc) { s with now := first + 80 * (f.payload.length + 5) }) ∧
    (∀ (kind : Byte) (length : BitVec 16), maxPayload kind < length.toNat →
      receiveAll r ([0xC3, kind] ++ bytes16 length) s =
        exec (.receiveError r .length) { s with now := first + 80 * 3 })

/-- The frames of the commands are those of chapter 10, field by field, with their checks. A frame decodes to a command
exactly when the command is well formed, its frame is that frame, and its destination says whether this part takes it;
any other frame is a LENGTH error when its payload is too long for its kind, and else a FORMAT error (R5, R10, R13,
R128, R197 to R200, R204). -/
def Obligations.DecodingAgreesWithEncoding : Prop :=
  FramesAsGiven ∧
  ∀ (node : Byte) (r : Receiver) (f : Frame),
    (∀ c : Instr, decodeFrame node r f = .ok c ↔
      encodeFrame c = some (r, f) ∧ c.wellFormed = true ∧
      (∀ h code args, requestParts c = some (h, code, args) →
        (c = .requestNotTaken h code args ↔ h.destination ≠ node ∧ h.destination ≠ 0))) ∧
    (∀ e, decodeFrame node r f = .error e →
      e = if f.payload.length ≤ payloadLimit f.kind then .format else .length)

/-- A frame for the forward path, that is a REPLY, NOTICE or opaque frame, a REQUEST for another node, or a LEVEL frame of
neither stream, each at A, goes the way of the forward path, and the receiver settles (R13, R18, R115, R128). That a
forward enable above 1, which no verified set holds, counts as off is the model's choice (log entry 8). -/
def Obligations.FramesForTheForwardPath : Prop :=
  (∀ (f : Frame) (s : State), s.inReset = false → (Instr.forwardFrame f).wellFormed = true →
    ∃ t, exec (.forwardFrame f) s = .next t ∧ Settled .aRx s t ∧ Forwarded f s t) ∧
  (∀ (h : RequestHeader) (code : Byte) (args : List Byte) (s : State), s.inReset = false → h.port = .a →
    (Instr.requestNotTaken h code args).wellFormed = true → h.destination ≠ s.node →
    ∃ t, exec (.requestNotTaken h code args) s = .next t ∧ Settled .aRx s t ∧
      Forwarded ⟨0x10, h.destination :: h.tag :: code :: h.reserved :: args⟩ s t) ∧
  (∀ (f : LevelFrame) (s : State), s.inReset = false → f.wellFormed = true →
    f.stream.setWidth 8 ≠ s.config.accepted.a → f.stream.setWidth 8 ≠ s.config.outputStream →
    ∃ t, exec (.levelFrameA f) s = .next t ∧ Settled .aRx s t ∧
      Forwarded (levelAsGiven f) s t)

/-- A frame completed at D-return-rx is discarded with RELAY_DROP by a full relay FIFO, which stands as it was; otherwise it
is at the tail, or with A-return-tx when that was free (R13, R118, R119, R140). -/
def Obligations.FramesForTheRelayPath : Prop :=
  ∀ (f : Frame) (s : State), s.inReset = false → f.lengthOk = true →
    ∃ t, exec (.relayFrame f) s = .next t ∧ Settled .dReturnRx s t ∧
      (4 ≤ s.relay.length → Latches [.relayDrop] s t ∧ OnlyReceiversAndConditions s t ∧
        (s.tx.a ≠ .free ∨ s.NothingWaitsForFree → t.relay = s.relay)) ∧
      (s.relay.length < 4 → s.tx.a ≠ .free → t = { s with rx := t.rx, relay := s.relay ++ [f] }) ∧
      (s.relay = [] → s.tx.a = .free → s.queue.countP (·.waitsFor .a) = 0 →
        t = { s with
          rx := t.rx
          tx := { s.tx with a := .sending f (s.now + (f.payload.length + 6) * 80) }
          preference := .replies })

/-- Frames that B discards, that is REPLY, NOTICE and opaque frames, REQUESTs for another node, and LEVEL frames of a stream
that is not accepted, settle the receiver and change nothing else. A LEVEL frame of the output stream on A, not of the
accepted stream, is discarded and STREAM_CLASH latches (R13, R18, R19, R128). -/
def Obligations.FramesDiscardedAtThePorts : Prop :=
  ((∀ (f : Frame) (s : State), s.inReset = false → (Instr.bFrameDiscarded f).wellFormed = true →
     ∃ t, exec (.bFrameDiscarded f) s = .next t ∧ Settled .bRx s t ∧ t = { s with rx := t.rx }) ∧
   (∀ (h : RequestHeader) (code : Byte) (args : List Byte) (s : State), s.inReset = false → h.port = .b →
     (Instr.requestNotTaken h code args).wellFormed = true → h.destination ≠ s.node →
     ∃ t, exec (.requestNotTaken h code args) s = .next t ∧ Settled .bRx s t ∧ t = { s with rx := t.rx }) ∧
   (∀ (f : LevelFrame) (s : State), s.inReset = false → f.wellFormed = true →
     f.stream.setWidth 8 ≠ s.config.accepted.b →
     ∃ t, exec (.levelFrameB f) s = .next t ∧ Settled .bRx s t ∧ t = { s with rx := t.rx })) ∧
  (∀ (f : LevelFrame) (s : State), s.inReset = false → f.wellFormed = true →
     f.stream.setWidth 8 ≠ s.config.accepted.a → f.stream.setWidth 8 = s.config.outputStream →
     ∃ t, exec (.levelFrameA f) s = .next t ∧ Settled .aRx s t ∧ Latches [.streamClash] s t ∧
       OnlyReceiversAndConditions s t)

/-- TRANSMIT_COMPLETE starts the 12 µs gap. On D it makes a SENDING output frame EMPTY. On a return line the SENDING entry
leaves the queue and the lowest-numbered pending kind moves in as a notice; a relayed frame concerns no entry (R15, R112,
R138, R190). -/
def Obligations.TransmissionsComplete : Prop :=
  (∀ (f : Frame) (n : Nat) (s : State), s.inReset = false → s.tx.d = .sending f n →
    exec (.transmitComplete .dTx) s = .next { s with
      now := max s.now n
      tx := { s.tx with d := .gap (some (n + 240)) }
      output := match s.output with
        | .sending _ => .empty
        | x => x }) ∧
  (∀ (p : Port) (f : Frame) (n : Nat) (s : State), s.inReset = false → s.tx.get (returnTx p) = .sending f n →
    (s.queue.countP (·.sendsOn p) = 0 →
      exec (.transmitComplete (returnTx p)) s =
        .next { s with now := max s.now n, tx := s.tx.set (returnTx p) (.gap (some (n + 240))) }) ∧
    (∀ l e r, s.queue = l ++ e :: r → e.sendsOn p = true → l.countP (·.sendsOn p) = 0 →
      ∃ t, exec (.transmitComplete (returnTx p)) s = .next t ∧
        t.tx.get (returnTx p) = .gap (some (n + 240)) ∧
        (s.pendingNotices = 0 → entries t.queue = entries (l ++ r) ∧ t.pendingNotices = 0) ∧
        (∀ k, hasKind s.pendingNotices k = true → (∀ j, j.number < k.number → hasKind s.pendingNotices j = false) →
          entries t.queue = entries (l ++ r) ++ [(.notice s.node k s.summaryByte, .a)] ∧
          ∀ j, hasKind t.pendingNotices j = true ↔ hasKind s.pendingNotices j = true ∧ j ≠ k) ∧
        t = { s with
          now := max s.now n
          tx := { s.tx with a := t.tx.a, b := t.tx.b }
          relay := t.relay
          queue := t.queue
          preference := t.preference
          pendingNotices := t.pendingNotices } ∧
        ReturnsServe { s with
          now := t.now, tx := s.tx.set (returnTx p) (.gap (some (n + 240))), queue := l ++ r } t))

/-- What a transmitter sends: the frames of replies and notices, the CRC-16 of R8, and the level of its line while it
sends a frame, bit by bit, high otherwise. GAP_END frees a transmitter, which takes the frame that waits. On D the
output frame goes before the head of the forward FIFO. On the return line of A, where both an entry of the queue and a
relayed frame wait, the return preference chooses, and it then names the other source. On the return line of B the
oldest waiting entry is taken (R1, R4, R8, R15, R16, R113, R119, R138 to R140, R201, R202, R205). -/
def Obligations.GapEndTakesTheNextFrame : Prop :=
  (Crc16AsGiven ∧
   (∀ r : Reply, (Message.reply r).frame = ⟨0x11, [r.node, r.tag, r.command,
      match r.result with
      | .ok => 0 | .accepted => 1 | .busy => 2 | .locked => 3 | .noSession => 4 | .tooLate => 5 | .badCommand => 6
      | .badArgument => 7,
      r.summary, 0] ++ r.data⟩) ∧
   (∀ (node : Byte) (k : Condition) (summary : Byte),
      (Message.notice node k summary).frame = ⟨0x12, [node, BitVec.ofNat 8 k.number, summary]⟩) ∧
   (∀ (x : Transmitter) (f : Frame) (n i j u : Nat) (b : Byte) (s : State), s.tx.get x = .sending f n →
      ([0xC3, f.kind] ++ bytes16 (BitVec.ofNat 16 f.payload.length) ++ f.payload ++
        bytes16 (crc16 (f.kind :: bytes16 (BitVec.ofNat 16 f.payload.length) ++ f.payload)))[i]? = some b →
      j < 10 → u < 8 → s.now + (f.payload.length + 6) * 80 = n + 80 * i + 8 * j + u →
      s.outputLine x = if j = 0 then false else if j = 9 then true else b.getLsbD (j - 1)) ∧
   (∀ (x : Transmitter) (s : State), (∀ f n, s.tx.get x ≠ .sending f n) → s.outputLine x = true)) ∧
  (∀ (n : Nat) (s : State), s.inReset = false → s.tx.d = .gap (some n) →
     (∀ f, s.output = .waiting f → exec (.gapEnd .dTx) s = .next { s with
       now := max s.now n
       tx := { s.tx with d := .sending f (max s.now n + (f.payload.length + 6) * 80) }
       output := .sending f }) ∧
     (∀ f rest, (∀ g, s.output ≠ .waiting g) → s.forward = f :: rest → exec (.gapEnd .dTx) s = .next { s with
       now := max s.now n
       tx := { s.tx with d := .sending f (max s.now n + (f.payload.length + 6) * 80) }
       forward := rest }) ∧
     ((∀ g, s.output ≠ .waiting g) → s.forward = [] →
       exec (.gapEnd .dTx) s = .next { s with now := max s.now n, tx := { s.tx with d := .free } })) ∧
  (∀ (n : Nat) (s : State), s.inReset = false → s.tx.a = .gap (some n) →
     (∀ l e r, s.queue = l ++ e :: r → e.waitsFor .a = true → l.countP (·.waitsFor .a) = 0 →
       s.relay = [] ∨ s.preference = .replies →
       exec (.gapEnd .aReturnTx) s = .next { s with
         now := max s.now n
         tx := { s.tx with
           a := .sending e.message.frame (max s.now n + (e.message.frame.payload.length + 6) * 80) }
         queue := l ++ { e with state := .sending } :: r
         preference := .relay }) ∧
     (∀ f rest, s.relay = f :: rest → s.queue.countP (·.waitsFor .a) = 0 ∨ s.preference = .relay →
       exec (.gapEnd .aReturnTx) s = .next { s with
         now := max s.now n
         tx := { s.tx with a := .sending f (max s.now n + (f.payload.length + 6) * 80) }
         relay := rest
         preference := .replies }) ∧
     (s.queue.countP (·.waitsFor .a) = 0 → s.relay = [] →
       exec (.gapEnd .aReturnTx) s = .next { s with now := max s.now n, tx := { s.tx with a := .free } })) ∧
  (∀ (n : Nat) (s : State), s.inReset = false → s.tx.b = .gap (some n) →
     (∀ l e r, s.queue = l ++ e :: r → e.waitsFor .b = true → l.countP (·.waitsFor .b) = 0 →
       exec (.gapEnd .bReturnTx) s = .next { s with
         now := max s.now n
         tx := { s.tx with
           b := .sending e.message.frame (max s.now n + (e.message.frame.payload.length + 6) * 80) }
         queue := l ++ { e with state := .sending } :: r }) ∧
     (s.queue.countP (·.waitsFor .b) = 0 →
       exec (.gapEnd .bReturnTx) s = .next { s with now := max s.now n, tx := { s.tx with b := .free } }))

/-! ## Input ports -/

/-- LEVEL_FRAME_A and LEVEL_FRAME_B of the accepted stream: the slots of the range are written and valid, the sequence is
recorded, the good-frame event moves the port state and starts the loss timer, RESTORE_x latches when the port enters
LIVE before FALLBACK, each with its notice, and the channels concerned are resolved (R18 to R21, R24 to R27, R56 to R58,
R183). -/
def Obligations.AcceptedFramesAreTaken : Prop :=
  ∀ (p : Port) (f : LevelFrame) (s : State), s.inReset = false → f.wellFormed = true →
    f.stream.setWidth 8 = s.config.accepted.get p →
    ∃ t u v, exec (levelCommand p f) s = .next t ∧ Settled (rxOf p) s t ∧
      u = s.ports.get p ∧ v = t.ports.get p ∧
      (∀ i : Fin Config.channels, v.slots[i] =
        if h : f.first.toNat ≤ i.val ∧ i.val < f.first.toNat + f.levels.length then
          ⟨f.levels[i.val - f.first.toNat]'(by omega), true⟩
        else u.slots[i]) ∧
      v.lastSequence = f.sequence ∧
      v.lossAt = some (s.now + (s.config.lossTime.get p).toNat * 200000) ∧
      (u.state = .silent ∨ u.state = .released →
        v.acquired = 1 ∧ v.holdAt = u.holdAt ∧
        v.state = if s.config.acquireCount.toNat = 1 then .live else .acquiring) ∧
      (u.state = .acquiring →
        v.acquired = u.acquired + 1 ∧ v.holdAt = u.holdAt ∧
        v.state = if s.config.acquireCount.toNat ≤ u.acquired + 1 then .live else .acquiring) ∧
      (u.state = .live → v.acquired = u.acquired ∧ v.holdAt = u.holdAt ∧ v.state = .live) ∧
      (u.state = .holding → v.acquired = u.acquired ∧ v.holdAt = none ∧ v.state = .live) ∧
      (∀ q, q ≠ p → t.ports.get q = s.ports.get q) ∧
      (∀ k, hasKind t.latched k = true ↔ hasKind s.latched k = true ∨
        (k = .restore p ∧ u.state ≠ .live ∧ v.state = .live) ∨ (k = .fallback ∧ EntersScene s t)) ∧
      LatchesThenFallback (if u.state ≠ .live ∧ v.state = .live then [.restore p] else []) s t ∧
      (∀ c : Fin Config.channels,
        (Concerned p f u v.state s.activeBank.map[c] →
          t.targets[c] = resolveTarget t c { s.targets[c] with owner := t.targets[c].owner }) ∧
        (¬ Concerned p f u v.state s.activeBank.map[c] → t.targets[c] = s.targets[c])) ∧
      OnlyReceiversAndConditions { s with ports := t.ports, targets := t.targets } t

/-- The merge owner of a LATEST channel moves to the source whose valid slot the accepted frame changed, to source 1 where
it changed both; no other owner moves (R47, R48). -/
def Obligations.LatestOwnerMoves : Prop :=
  ∀ (p : Port) (f : LevelFrame) (s t : State), s.inReset = false → f.wellFormed = true →
    f.stream.setWidth 8 = s.config.accepted.get p → exec (levelCommand p f) s = .next t →
    ∀ c : Fin Config.channels,
      let e := s.activeBank.map[c]
      (e.rule = 4 → MovesSource p f s e.sources.1 → t.targets[c].owner = .source1) ∧
      (e.rule = 4 → ¬ MovesSource p f s e.sources.1 → MovesSource p f s e.sources.2 →
        t.targets[c].owner = .source2) ∧
      ((e.rule ≠ 4 ∨ (¬ MovesSource p f s e.sources.1 ∧ ¬ MovesSource p f s e.sources.2)) →
        t.targets[c].owner = s.targets[c].owner)

/-- LOSS_EXPIRY in ACQUIRING releases the port; in LIVE LOSS_x latches and the port holds, or with a hold time of 0 is
released with RELEASE_x. HOLD_EXPIRY in HOLDING releases the port with RELEASE_x. Every channel with a source on the port
is resolved (R21, R22, R24, R28 to R30, R57, R58, R183). -/
def Obligations.LossAndHoldExpiries : Prop :=
  (∀ (p : Port) (n : Nat) (s : State), s.inReset = false → (s.ports.get p).lossAt = some n →
     (s.ports.get p).state = .acquiring ∨ (s.ports.get p).state = .live →
     ∃ t u v, exec (.lossExpiry p) s = .next t ∧ t.now = max s.now n ∧ t.rx = s.rx ∧
       u = s.ports.get p ∧ v = t.ports.get p ∧ v.lossAt = none ∧ v.lastSequence = u.lastSequence ∧
       (u.state = .acquiring ∨ s.config.holdTime.get p = 0 →
         v.state = .released ∧ v.acquired = 0 ∧ v.holdAt = none ∧ Invalidated u.slots v.slots) ∧
       (u.state = .live → s.config.holdTime.get p ≠ 0 →
         v.state = .holding ∧ v.acquired = u.acquired ∧ v.slots = u.slots ∧
         v.holdAt = some (n + (s.config.holdTime.get p).toNat * 2000000)) ∧
       (∀ q, q ≠ p → t.ports.get q = s.ports.get q) ∧
       (∀ k, hasKind t.latched k = true ↔ hasKind s.latched k = true ∨ (k = .loss p ∧ u.state = .live) ∨
         (k = .releaseOf p ∧ u.state = .live ∧ s.config.holdTime.get p = 0) ∨ (k = .fallback ∧ EntersScene s t)) ∧
       LatchesThenFallback ((if u.state = .live then [.loss p] else []) ++
         (if u.state = .live ∧ s.config.holdTime.get p = 0 then [.releaseOf p] else [])) s t ∧
       (∀ c : Fin Config.channels,
         (OnPort p s.activeBank.map[c].sources.1 ∨ OnPort p s.activeBank.map[c].sources.2 →
           t.targets[c] = resolveTarget t c s.targets[c]) ∧
         (¬ OnPort p s.activeBank.map[c].sources.1 → ¬ OnPort p s.activeBank.map[c].sources.2 →
           t.targets[c] = s.targets[c])) ∧
       OnlyReceiversAndConditions { s with now := t.now, ports := t.ports, targets := t.targets } t) ∧
  (∀ (p : Port) (n : Nat) (s : State), s.inReset = false → (s.ports.get p).holdAt = some n →
     (s.ports.get p).state = .holding →
     ∃ t u v, exec (.holdExpiry p) s = .next t ∧ t.now = max s.now n ∧ t.rx = s.rx ∧
       u = s.ports.get p ∧ v = t.ports.get p ∧
       v.state = .released ∧ v.acquired = 0 ∧ v.lossAt = none ∧ v.holdAt = none ∧
       v.lastSequence = u.lastSequence ∧ Invalidated u.slots v.slots ∧
       (∀ q, q ≠ p → t.ports.get q = s.ports.get q) ∧
       (∀ k, hasKind t.latched k = true ↔ hasKind s.latched k = true ∨ k = .releaseOf p ∨
         (k = .fallback ∧ EntersScene s t)) ∧
       LatchesThenFallback [.releaseOf p] s t ∧
       (∀ c : Fin Config.channels,
         (OnPort p s.activeBank.map[c].sources.1 ∨ OnPort p s.activeBank.map[c].sources.2 →
           t.targets[c] = resolveTarget t c s.targets[c]) ∧
         (¬ OnPort p s.activeBank.map[c].sources.1 → ¬ OnPort p s.activeBank.map[c].sources.2 →
           t.targets[c] = s.targets[c])) ∧
       OnlyReceiversAndConditions { s with now := t.now, ports := t.ports, targets := t.targets } t)

/-! ## Merging, curves and resolution -/

/-- The output of a curve is y[k] + ((y[k+1] - y[k]) f) div 4096 with the division truncating toward zero, and lies between
y[k] and y[k+1] (R50). -/
def Obligations.CurveOutputIsInterpolated : Prop :=
  ∀ (y : CurveRecord) (x : Level) (k : Fin 16) (f : Nat), x.toNat = 4096 * k.val + f → f < 4096 →
    ((curveOutput y x).toNat : Int) =
      (y[k.val].toNat : Int) + (((y[k.val + 1].toNat : Int) - (y[k.val].toNat : Int)) * (f : Int)).tdiv 4096 ∧
    min y[k.val].toNat y[k.val + 1].toNat ≤ (curveOutput y x).toNat ∧
    (curveOutput y x).toNat ≤ max y[k.val].toNat y[k.val + 1].toNat

/-- How the source, curve, fallback scene and profile fields are read. The merged value of a channel under each rule:
NONE gives none; ONLY follows source 1; HIGHEST takes the larger; PREFER takes source 1 before source 2; LATEST takes
the owner's before the other's. Then resolution at a glance: park, live, hold, scene (R42 to R46, R53 to R57, R150,
R211, R214). -/
def Obligations.ResolutionTakesTheFirstStep : Prop :=
  FieldsReadAsGiven ∧
  (∀ (ports : PerPort PortUnit) (e : MapEntry) (owner : MergeOwner),
     let c1 := contribution ports e.sources.1
     let c2 := contribution ports e.sources.2
     (e.rule = 0 → mergedValue ports e owner = none) ∧
     (e.rule = 1 → mergedValue ports e owner = c1) ∧
     (e.rule = 2 → ∀ v : Level, mergedValue ports e owner = some v ↔
       (c1 = some v ∧ (c2 = none ∨ ∃ w, c2 = some w ∧ w.toNat ≤ v.toNat)) ∨
       (c2 = some v ∧ (c1 = none ∨ ∃ w, c1 = some w ∧ w.toNat < v.toNat))) ∧
     (e.rule = 3 → ∀ v : Level, mergedValue ports e owner = some v ↔ c1 = some v ∨ (c1 = none ∧ c2 = some v)) ∧
     (e.rule = 4 → owner ≠ .source2 → ∀ v : Level,
       mergedValue ports e owner = some v ↔ c1 = some v ∨ (c1 = none ∧ c2 = some v)) ∧
     (e.rule = 4 → owner = .source2 → ∀ v : Level,
       mergedValue ports e owner = some v ↔ c2 = some v ∨ (c2 = none ∧ c1 = some v)) ∧
     (∀ (src : Option Source) (v : Level), contribution ports src = some v ↔
       ∃ q i, src = some ⟨q, i⟩ ∧ ((ports.get q).state = .live ∨ (ports.get q).state = .holding) ∧
         (ports.get q).slots[i] = ⟨v, true⟩)) ∧
  (∀ (s : State) (c : Fin Config.channels) (t : TargetRecord),
     let e := s.activeBank.map[c]
     let mapProfile : Fin 16 := profileId e.profile.toNat
     (s.parks[c].parked = true →
       resolveTarget s c t = ⟨s.parks[c].level, s.parks[c].profile.getD mapProfile, .park, t.owner⟩) ∧
     (s.parks[c].parked = false →
       (∀ v, mergedValue s.ports e t.owner = some v →
         resolveTarget s c t =
           ⟨match e.curveIndex with | some i => curveOutput s.activeBank.curves[i] v | none => v,
             mapProfile, .live, t.owner⟩) ∧
       (mergedValue s.ports e t.owner = none →
         (e.hold = 1 ∨ s.config.fallback = none → resolveTarget s c t = ⟨t.level, mapProfile, .held, t.owner⟩) ∧
         (∀ f, e.hold = 0 → s.config.fallback = some f →
           resolveTarget s c t = ⟨s.scenes[f][c], profileId s.config.fallbackProfile.toNat, .scene, t.owner⟩))))

/-! ## Fades -/

/-- FADE_TICK restarts the timer, and while PAUSE is released advances every channel by the step of its profile's kind
toward its target; while PAUSE is asserted it changes no fade context (R67 to R71). -/
def Obligations.FadeTickAdvancesEveryChannel : Prop :=
  ∀ (n : Nat) (s : State), s.inReset = false → s.tickAt = some n →
    (s.pause = true → exec .fadeTick s = .next { s with
      now := max s.now n
      tickAt := some (n + s.config.tickPeriod.toNat * 10000) }) ∧
    (s.pause = false → ∃ fades, exec .fadeTick s = .next { s with
        now := max s.now n
        tickAt := some (n + s.config.tickPeriod.toNat * 10000)
        fades := fades } ∧
      ∀ c : Fin Config.channels, fades[c] =
        profileStep s.activeBank.profiles[s.targets[c].profile]
          { s.fades[c] with profile := s.targets[c].profile, aim := s.targets[c].level.toNat * 256 })

/-- Under a SNAP profile the step sets the position to the aimed target, the rate to 0 and the phase to IDLE, and leaves
the direction; a SNAP channel therefore stands on its target after the first tick taken, from every phase (R72). -/
def Obligations.SnapJumps : Prop :=
  (∀ (r : ProfileRecord) (x : FadeContext), r.kind = 0 →
    profileStep r x = { x with position := x.aim, rate := 0, phase := .idle }) ∧
  (∀ (n : Nat) (c : Fin Config.channels) (s : State), s.inReset = false → s.tickAt = some n → s.pause = false →
    s.activeBank.profiles[s.targets[c].profile].kind = 0 →
    ∃ t, exec .fadeTick s = .next t ∧
      t.fades[c] = ⟨s.targets[c].level.toNat * 256, 0, s.fades[c].direction, .idle, s.targets[c].level.toNat * 256,
        s.targets[c].profile⟩)

/-- The step of a SLEW profile (R73). -/
def Obligations.SlewMovesAtMaxRate : Prop :=
  ∀ (r : ProfileRecord) (x : FadeContext), r.kind = 1 →
    (x.aim = x.position → profileStep r x = { x with rate := 0, phase := .idle }) ∧
    (x.position < x.aim →
      profileStep r x =
        if x.aim ≤ x.position + r.maxRate.toNat then
          { x with position := x.aim, rate := 0, phase := .idle, direction := .up }
        else
          { x with
            position := x.position + r.maxRate.toNat, rate := r.maxRate.toNat, phase := .moving, direction := .up }) ∧
    (x.aim < x.position →
      profileStep r x =
        if x.position ≤ x.aim + r.maxRate.toNat then
          { x with position := x.aim, rate := 0, phase := .idle, direction := .down }
        else
          { x with
            position := x.position - r.maxRate.toNat, rate := r.maxRate.toNat, phase := .moving, direction := .down })

/-- The step of a RAMP profile for a channel that takes the MOVING step: the rate clamped to Rm; at rest the start at Rs;
decelerate, accelerate or cruise; arrive or move (R75 to R78, R81, R82). -/
def Obligations.RampMoves : Prop :=
  ∀ (r : ProfileRecord) (x : FadeContext) (v D d a w : Nat), r.kind = 2 →
    (x.phase = .idle → x.position ≠ x.aim ∧ v = r.startRate.toNat) →
    (x.phase ≠ .idle → v = min x.rate r.maxRate.toNat ∧
      (x.direction = .up → x.position ≤ x.aim) ∧ (x.direction = .down → x.aim ≤ x.position)) →
    D = max x.aim x.position - min x.aim x.position →
    d = (if v ≤ r.breakRate.toNat then r.decelLow.toNat else r.decelHigh.toNat) →
    a = (if v < r.breakRate.toNat then r.accelLow.toNat else r.accelHigh.toNat) →
    (w = if 2 * d * D ≤ v * v then (if v < d + r.floorRate.toNat then r.floorRate.toNat else v - d)
      else if v < r.maxRate.toNat then (if r.maxRate.toNat < v + a then r.maxRate.toNat else v + a) else v) →
    (profileStep r x).direction =
      (if x.phase = .idle then (if x.position < x.aim then .up else .down) else x.direction) ∧
    (profileStep r x).aim = x.aim ∧ (profileStep r x).profile = x.profile ∧
    (D ≤ w → (profileStep r x).position = x.aim ∧ (profileStep r x).rate = 0 ∧ (profileStep r x).phase = .idle) ∧
    (w < D →
      (profileStep r x).position = (if x.position < x.aim then x.position + w else x.position - w) ∧
      (profileStep r x).rate = w ∧ (profileStep r x).phase = .moving)

/-- The step of a RAMP profile for a channel in motion whose aim is behind: it brakes in its direction, and when the rate
is spent or the end of the range is reached it turns with Rs; and a channel at rest on its aim stays (R75, R76, R78 to
R82). -/
def Obligations.RampBrakesAndTurns : Prop :=
  ∀ (r : ProfileRecord) (x : FadeContext) (v d : Nat), r.kind = 2 →
    v = min x.rate r.maxRate.toNat →
    d = (if v ≤ r.breakRate.toNat then r.decelLow.toNat else r.decelHigh.toNat) →
    (x.phase = .idle → x.position = x.aim → profileStep r x = { x with rate := 0 }) ∧
    (x.phase ≠ .idle → x.direction = .up → x.aim < x.position → profileStep r x =
      if v ≤ d then { x with rate := r.startRate.toNat, direction := .down, phase := .moving }
      else if 16777215 < x.position + (v - d) then
        { x with position := 16777215, rate := r.startRate.toNat, direction := .down, phase := .moving }
      else { x with position := x.position + (v - d), rate := v - d, phase := .reversing }) ∧
    (x.phase ≠ .idle → x.direction = .down → x.position < x.aim → profileStep r x =
      if v ≤ d then { x with rate := r.startRate.toNat, direction := .up, phase := .moving }
      else if x.position < v - d then
        { x with position := 0, rate := r.startRate.toNat, direction := .up, phase := .moving }
      else { x with position := x.position - (v - d), rate := v - d, phase := .reversing })

/-- Under a verified SLEW or RAMP profile a tick moves a channel by at most Rm, and a step that is not a braking leaves it
between where it was and its aim (R83). -/
def Obligations.StepsNeverPassTheAim : Prop :=
  ∀ (r : ProfileRecord) (x : FadeContext), checkProfile r = none → r.kind ≠ 0 → x.position ≤ 16777215 →
    (profileStep r x).position ≤ x.position + r.maxRate.toNat ∧
    x.position ≤ (profileStep r x).position + r.maxRate.toNat ∧
    (r.kind = 1 ∨ x.phase = .idle ∨ (x.direction = .up → x.position ≤ x.aim) ∧ (x.direction = .down → x.aim ≤ x.position) →
      min x.position x.aim ≤ (profileStep r x).position ∧ (profileStep r x).position ≤ max x.position x.aim)

/-- Under a verified profile of any kind, a channel whose aim and profile stay fixed comes to rest on its aim after a
finite number of ticks, from wherever it stands and however it moves, and stays there (R71, R83). -/
def Obligations.FadesComeToRest : Prop :=
  ∀ (r : ProfileRecord) (x : FadeContext), checkProfile r = none → x.position ≤ 16777215 → x.aim ≤ 16776960 →
    ∃ n, ∀ m, n ≤ m → (fadeFor r m x).AtRest ∧ (fadeFor r m x).aim = x.aim

/-! ## Output stream -/

/-- REFRESH_EXPIRY with the output frame EMPTY and no session ARMED builds the frame from the levels of the moment under the
next sequence number, which is consumed; D-tx takes it if free. With the output frame WAITING or SENDING the expiry is a
missed refresh, counted up to 65535. The timer restarts either way (R64, R107 to R112). -/
def Obligations.RefreshSnapshotsOrMisses : Prop :=
  (∀ (n : Nat) (s : State) (f : Frame), s.inReset = false → s.refreshAt = some n → s.output = .empty →
     (∀ o k, s.session ≠ .armed o k) → s.config.outputLength.toNat ≤ 384 →
     f = ⟨0x01, [s.config.outputStream, s.nextSequence, 0, 0] ++ bytes16 s.config.outputLength ++
       bytesOfHalves ((s.fades.toList.take s.config.outputLength.toNat).map fun x =>
         BitVec.ofNat 16 (x.position / 256))⟩ →
     (s.tx.d = .free → exec .refreshExpiry s = .next { s with
       now := max s.now n
       refreshAt := some (n + s.config.refreshPeriod.toNat * 20000)
       nextSequence := s.nextSequence + 1
       output := .sending f
       tx := { s.tx with d := .sending f (max s.now n + (f.payload.length + 6) * 80) } }) ∧
     (s.tx.d ≠ .free → exec .refreshExpiry s = .next { s with
       now := max s.now n
       refreshAt := some (n + s.config.refreshPeriod.toNat * 20000)
       nextSequence := s.nextSequence + 1
       output := .waiting f })) ∧
  (∀ (n : Nat) (s : State), s.inReset = false → s.refreshAt = some n → s.output ≠ .empty →
     exec .refreshExpiry s = .next { s with
       now := max s.now n
       refreshAt := some (n + s.config.refreshPeriod.toNat * 20000)
       missed := min (s.missed + 1) 65535 })

/-- REFRESH_EXPIRY with a session ARMED and the output frame EMPTY makes the changeover: banks exchanged, checksum taken,
outcome DONE, a copy begun, COMMIT_DONE latched, ALERT under the new mask, a port whose accepted stream changed SILENT,
owners cleared, every channel resolved against the new bank, the next interval of the new period. The frame is the old
program's. No fade context changes, but that a fade tick due at that instant may fall within, and then finds the old
records with the new bank's profiles (R33, R60, R61, R87, R107, R109, R111, R171, R183, R187, R192); that it falls within
by a free choice is log entry 9. -/
def Obligations.SnapshotMakesTheChangeover : Prop :=
  ∀ (n : Nat) (s : State) (o : SessionOwner) (k : Crc32), s.inReset = false → s.refreshAt = some n →
    s.output = .empty → s.session = .armed o k →
    ∃ t, exec .refreshExpiry s = .next t ∧
      t.now = max s.now n ∧ t.active = s.active.other ∧ t.banks = s.banks ∧ t.checksum = k ∧ t.outcome = .done ∧
      t.session = .copying (max s.now n) ∧ t.nextSequence = s.nextSequence + 1 ∧ t.output ≠ .empty ∧
      (∀ f : Frame, s.config.outputLength.toNat ≤ 384 →
        f = ⟨0x01, [s.config.outputStream, s.nextSequence, 0, 0] ++ bytes16 s.config.outputLength ++
          bytesOfHalves ((s.fades.toList.take s.config.outputLength.toNat).map fun x =>
            BitVec.ofNat 16 (x.position / 256))⟩ →
        (s.tx.d = .free → t.output = .sending f ∧
          t.tx.d = .sending f (max s.now n + (f.payload.length + 6) * 80)) ∧
        (s.tx.d ≠ .free → t.output = .waiting f ∧ t.tx.d = s.tx.d)) ∧
      ((∀ m, s.tickAt = some m → max s.now n < m) →
        t.fades = s.fades ∧ t.tickAt = s.tickAt ∧ t.choices = s.choices) ∧
      (∀ m, s.tickAt = some m → m ≤ max s.now n → t.choices = s.choices + 1 ∧
        ((t.fades = s.fades ∧ t.tickAt = s.tickAt) ∨
         (t.tickAt = some (m + s.shadowBank.config.tickPeriod.toNat * 10000) ∧
          (s.pause = true → t.fades = s.fades) ∧
          (s.pause = false → ∀ c : Fin Config.channels, t.fades[c] =
            profileStep s.shadowBank.profiles[s.targets[c].profile]
              { s.fades[c] with profile := s.targets[c].profile, aim := s.targets[c].level.toNat * 256 })))) ∧
      t.refreshAt = some (n + s.shadowBank.config.refreshPeriod.toNat * 20000) ∧
      (∀ p, t.ports.get p =
        if s.config.accepted.get p = s.shadowBank.config.accepted.get p then s.ports.get p
        else { s.ports.get p with
          state := .silent
          acquired := 0
          lossAt := none
          holdAt := none
          slots := (t.ports.get p).slots }) ∧
      (∀ p, s.config.accepted.get p ≠ s.shadowBank.config.accepted.get p →
        Invalidated (s.ports.get p).slots (t.ports.get p).slots) ∧
      (∀ c : Fin Config.channels, t.targets[c] = resolveTarget t c { s.targets[c] with owner := .nobody }) ∧
      (∀ j, hasKind t.latched j = true ↔ hasKind s.latched j = true ∨ j = .commitDone ∨
        (j = .fallback ∧ EntersScene s t)) ∧
      LatchesThenFallback [.commitDone] { s with active := s.active.other, alert := t.alert } t ∧
      t.AlertFollows ∧ ReturnsServe s t ∧
      t = { s with
        now := t.now
        choices := t.choices
        fades := t.fades
        tickAt := t.tickAt
        tx := { s.tx with d := t.tx.d, a := t.tx.a }
        ports := t.ports
        targets := t.targets
        refreshAt := t.refreshAt
        output := t.output
        nextSequence := t.nextSequence
        relay := t.relay
        queue := t.queue
        preference := t.preference
        active := t.active
        checksum := t.checksum
        session := t.session
        outcome := t.outcome
        latched := t.latched
        pendingNotices := t.pendingNotices
        alert := t.alert }

/-- The next output sequence is the number the next snapshot puts in its frame; the snapshot raises it by 1 modulo 256; a
missed refresh leaves it, HARD_RESET sets it to 0, and no other command, RESTART among them, changes it (R110). -/
def Obligations.OutputSequenceCountsSnapshots : Prop :=
  (∀ (n : Nat) (s : State), s.inReset = false → s.refreshAt = some n → s.output = .empty →
    ∃ t f, exec .refreshExpiry s = .next t ∧ (t.output = .waiting f ∨ t.output = .sending f) ∧
      f.payload[1]? = some s.nextSequence ∧ t.nextSequence.toNat = (s.nextSequence.toNat + 1) % 256) ∧
  (∀ (n : Nat) (s : State), s.inReset = false → s.refreshAt = some n → s.output ≠ .empty →
    ∃ t, exec .refreshExpiry s = .next t ∧ t.nextSequence = s.nextSequence) ∧
  (∀ s : State, ∃ t, exec .hardReset s = .next t ∧ t.nextSequence = 0) ∧
  (∀ (c : Instr) (s t : State), c ≠ .refreshExpiry → c ≠ .hardReset → exec c s = .next t →
    t.nextSequence = s.nextSequence)

/-! ## Management -/

/-- A replay is not executed: whatever the command, it has no effect, and the stored reply joins the queue again with a
fresh summary byte, which the record takes. An addressed request, replay or not, that finds 8 entries in the reply queue
is discarded unexecuted, nothing is queued, and REPLY_OVERFLOW latches (R130, R132, R133). -/
def Obligations.ReplaysAndFullQueues : Prop :=
  (∀ (c : Instr) (h : RequestHeader) (code : Byte) (args : List Byte) (r : ReplayRecord) (s : State),
     requestParts c = some (h, code, args) → c.wellFormed = true → s.inReset = false → h.destination = s.node →
     s.replay.get h.port = some r → h.tag ≠ 0 → r.tag = h.tag → r.command = code → s.queue.length < 8 →
     ∃ t, exec c s = .next t ∧ Settled (rxOf h.port) s t ∧ OnlyAnswer s t ∧
       entries t.queue = entries s.queue ++ [(.reply { r.reply with summary := s.summaryByte }, h.port)] ∧
       t.replay = s.replay.set h.port (some { r with reply := { r.reply with summary := s.summaryByte } })) ∧
  (∀ (c : Instr) (h : RequestHeader) (code : Byte) (args : List Byte) (s : State),
     requestParts c = some (h, code, args) → c.wellFormed = true → s.inReset = false → h.destination = s.node →
     8 ≤ s.queue.length →
     ∃ t, exec c s = .next t ∧ Settled (rxOf h.port) s t ∧ Latches [.replyOverflow] s t ∧
       OnlyReceiversAndConditions s t ∧ t.queue = s.queue ∧ t.relay = s.relay ∧ t.tx = s.tx ∧
       t.preference = s.preference)

/-- A request answered with a result other than OK and ACCEPTED has no effect beyond its answer, which joins the reply queue
and the replay record and goes the way of the return lines (R130, R131, R134, R137). -/
def Obligations.RefusedRequestsHaveNoEffect : Prop :=
  ∀ (c : Instr) (h : RequestHeader) (code : Byte) (args : List Byte) (s t : State) (r : ReplayRecord),
    requestParts c = some (h, code, args) → c.wellFormed = true → Executes h code args s →
    exec c s = .next t → t.replay.get h.port = some r → r.reply.result ≠ .ok → r.reply.result ≠ .accepted →
    Settled (rxOf h.port) s t ∧ OnlyAnswer s t ∧ Answered h code r.reply.result [] [] s t

/-- BAD_COMMAND: an unknown code is answered BAD_COMMAND, whatever the reserved field holds; and any other command with a
nonzero reserved field is answered BAD_ARGUMENT (R134, R203). -/
def Obligations.GeneralChecksComeFirst : Prop :=
  (∀ (h : RequestHeader) (code : Byte) (args : List Byte) (s : State),
    (Instr.badCommand h code args).wellFormed = true → Executes h code args s →
    ∃ t, exec (.badCommand h code args) s = .next t ∧ Settled (rxOf h.port) s t ∧
      Answered h code .badCommand [] [] s t ∧ OnlyAnswer s t) ∧
  (∀ (c : Instr) (h : RequestHeader) (code : Byte) (args : List Byte) (s : State),
    requestParts c = some (h, code, args) → c.wellFormed = true → Executes h code args s → h.reserved ≠ 0 →
    (∃ n, (code, n) ∈ commandCodes) →
    ∃ t, exec c s = .next t ∧ Settled (rxOf h.port) s t ∧ Answered h code .badArgument [] [] s t ∧ OnlyAnswer s t)

/-- A broadcast of FORCE, RELEASE, SAVE_SCENE, ACK_CONDITIONS or RESTART does the same to the part as when addressed to it,
and is not answered: no reply joins the queue, and no replay record is set. It is carried out whatever the reply queue
and the replay records hold. From A the frame is handed to the forward path besides, after a RESTART has emptied it; with
a full forward FIFO the frame is discarded with FORWARD_DROP, and the order of the two is open (log entry 3). Each latching
of a broadcast is offered its notice at the latching itself. After a
RESTART a frame being sent goes on, and no entry that waited is sent (log entry 17). A broadcast of any other command has no
effect at B, and goes the way of the forward path at A (R17, R100, R115, R129, R146, R147, R183, R185, R195). That a
forward enable above 1, which no verified set holds, counts as off is the model's choice (log entry 8). -/
def Obligations.BroadcastsAreNotAnswered : Prop :=
  (∀ (h g : RequestHeader) (s : State) (c d : Instr), s.inReset = false → h.destination = 0 → s.node ≠ 0 →
     h.port = .b → g = { h with destination := s.node } → c.wellFormed = true → SameForHeaders h g c d →
     ∃ t u, exec c s = .next t ∧ exec d { s with queue := [], replay := ⟨none, none⟩ } = .next u ∧ Settled .bRx s t ∧
       t.rx = u.rx ∧ t.ports = u.ports ∧ t.parks = u.parks ∧ t.targets = u.targets ∧ t.scenes = u.scenes ∧
       t.missed = u.missed ∧ t.forward = u.forward ∧ t.session = u.session ∧ t.pointer = u.pointer ∧
       t.latched = u.latched ∧ t.alert = u.alert ∧
       (h.reserved ≠ 0 ∨ ((∀ kinds x, c ≠ .ackConditions h kinds x) ∧ ∀ x, c ≠ .restart h x) →
         t.replay = s.replay ∧ LatchesThenFallback [] s t ∧
         OnlyAnswerAndConditions { s with parks := t.parks, targets := t.targets, scenes := t.scenes } t) ∧
       (h.reserved = 0 → ∀ kinds x, c = .ackConditions h kinds x →
         t.replay = s.replay ∧ entries t.queue = entries s.queue ∧ OnlyAnswerAndConditions s t ∧
         ∀ k, hasKind t.pendingNotices k = true ↔ hasKind s.pendingNotices k = true ∧ hasKind kinds k = false) ∧
       (h.reserved = 0 → ∀ x, c = .restart h x →
         t.replay = ⟨none, none⟩ ∧
         (EntersScene s t → Latches (.fallback :: if s.pause then [.paused] else [])
           { s with latched := 0, pendingNotices := 0, alert := false, queue := [] } t) ∧
         (¬ EntersScene s t → Latches (if s.pause then [.paused] else [])
           { s with latched := 0, pendingNotices := 0, alert := false, queue := [] } t) ∧
         OnlyAnswerAndConditions { s with
           ports := t.ports
           parks := t.parks
           targets := t.targets
           missed := t.missed
           forward := t.forward
           relay := []
           queue := []
           session := t.session
           pointer := t.pointer } t)) ∧
  (∀ (h g : RequestHeader) (s : State) (c d : Instr) (code : Byte) (args : List Byte), s.inReset = false →
     h.destination = 0 → s.node ≠ 0 → h.port = .a → g = { h with port := .b } → c.wellFormed = true →
     SameForHeaders h g c d → requestParts c = some (h, code, args) →
     ∃ t u, exec c s = .next t ∧
       exec d (if code = 0x31 ∧ h.reserved = 0 then { s with queue := [] } else s) = .next u ∧
       Settled .aRx s t ∧
       (s.config.forwardEnable ≠ 1 ∨ s.forward.length < 4 ∨ code = 0x31 →
         Forwarded ⟨0x10, 0 :: h.tag :: code :: h.reserved :: args⟩ u t) ∧
       (s.config.forwardEnable = 1 → 4 ≤ s.forward.length → code ≠ 0x31 →
         t.parks = u.parks ∧ t.targets = u.targets ∧ t.scenes = u.scenes ∧ t.forward = s.forward ∧
         t.replay = s.replay ∧
         (∀ k, k ≠ .forwardDrop → (hasKind t.latched k = true ↔ hasKind u.latched k = true)) ∧
         ((∀ kinds x, c = .ackConditions h kinds x → h.reserved = 0 → hasKind kinds .forwardDrop = false) →
           hasKind t.latched .forwardDrop = true) ∧
         ((Latches [.forwardDrop] u t ∧ OnlyReceiversAndConditions { u with choices := t.choices } t) ∨
          ∃ v w, Latches [.forwardDrop] s v ∧ OnlyReceiversAndConditions s v ∧ exec d v = .next w ∧
            t = { w with rx := t.rx, choices := t.choices }))) ∧
  (∀ (c : Instr) (h : RequestHeader) (code : Byte) (args : List Byte) (s : State),
     requestParts c = some (h, code, args) → c.wellFormed = true → s.inReset = false →
     h.destination = 0 → s.node ≠ 0 → code ∉ ([0x20, 0x21, 0x22, 0x30, 0x31] : List Byte) →
     ∃ t, exec c s = .next t ∧ Settled (rxOf h.port) s t ∧
       (h.port = .b → t = { s with rx := t.rx }) ∧
       (h.port = .a → Forwarded ⟨0x10, 0 :: h.tag :: code :: h.reserved :: args⟩ s t))

/-- IDENTIFY and READ_STATUS are answered OK with the identity record and the status record, with the codes of R208 for port
states, error kinds, failure reasons and tables (R142 to R144, R207, R208, R214). -/
def Obligations.IdentityAndStatusAreRead : Prop :=
  (∀ x : PortState, x.code = match x with
    | .silent => 0 | .acquiring => 1 | .live => 2 | .holding => 3 | .released => 4) ∧
  (∀ x : Option ErrorKind, ErrorKind.code x = match x with
    | none => 0 | some .character => 1 | some .truncated => 2 | some .length => 3 | some .crc => 4
    | some .format => 5) ∧
  (∀ x : FailureReason, x.code = match x with
    | .checksum => 0x01 | .stream => 0x02 | .outputLength => 0x03 | .refresh => 0x04 | .tick => 0x05
    | .lossTime => 0x06 | .acquire => 0x07 | .fallbackScene => 0x08 | .fallbackProfile => 0x09
    | .sessionTimeout => 0x0A | .summaryList => 0x0B | .reserved => 0x0C | .mergeRule => 0x0D | .sources => 0x0E
    | .source => 0x0F | .curve => 0x10 | .profile => 0x11 | .kind => 0x12 | .maxRate => 0x13 | .floorRate => 0x14
    | .startRate => 0x15 | .breakRate => 0x16 | .accel => 0x17 | .decel => 0x18) ∧
  TablesAsGiven ∧
  ∀ (h : RequestHeader) (extra : List Byte) (s : State), h.reserved = 0 →
    (Executes h 0x01 extra s → ∃ t, exec (.identify h extra) s = .next t ∧ Settled (rxOf h.port) s t ∧
      OnlyAnswer s t ∧
      Answered h 0x01 .ok
        ([0x1D, 0x4A, 0x03, 0x84, 0x01, s.node, if s.active = .bank0 then 0 else 1] ++ bytes32 s.checksum) [] s t) ∧
    (Executes h 0x02 extra s → ∃ t data, exec (.readStatus h extra) s = .next t ∧ Settled (rxOf h.port) s t ∧
      OnlyAnswer s t ∧ Answered h 0x02 .ok data [] s t ∧ data.length = 29 ∧
      data.take 10 = [s.ports.a.state.code, s.ports.b.state.code, BitVec.ofNat 8 s.ports.a.acquired,
        BitVec.ofNat 8 s.ports.b.acquired, s.ports.a.lastSequence, s.ports.b.lastSequence,
        ErrorKind.code s.rx.a.lastError, ErrorKind.code s.rx.b.lastError, ErrorKind.code s.rx.d.lastError,
        s.nextSequence] ∧
      (data.drop 10).take 4 = bytes16 (BitVec.ofNat 16 s.missed) ++
        bytes16 (BitVec.ofNat 16 (s.targets.toList.countP (·.kind = .scene))) ∧
      (data.drop 14).take 1 = [match s.session with
        | .noSession => 0 | .opened _ _ => 1 | .verifying _ _ _ => 2 | .armed _ _ => 3 | .copying _ => 4] ∧
      (data.drop 15).take 3 = (match s.session with
        | .opened o _ | .verifying o _ _ | .armed o _ => (if o.port = .a then 0 else 1) :: bytes16 o.token
        | .noSession | .copying _ => [0xFF, 0, 0]) ∧
      (data.drop 18).take 5 = (match s.outcome with
        | .never => [0, 0, 0xFF, 0xFF, 0xFF]
        | .done => [1, 0, 0xFF, 0xFF, 0xFF]
        | .failed ⟨reason, none⟩ => [2, reason.code, 0xFF, 0xFF, 0xFF]
        | .failed ⟨reason, some e⟩ => [2, reason.code, e.table.code] ++ bytes16 (BitVec.ofNat 16 e.index)) ∧
      data.drop 23 = bytes16 s.latched ++ bytes16 s.pendingNotices ++
        [if s.pause then 1 else 0, BitVec.ofNat 8 s.queue.length])

/-- READ_CHANNELS and READ_INPUTS within their ranges are answered OK with the channel records and the slots, and outside
them BAD_ARGUMENT; they change no state of what they read (R38, R90, R144, R206, R209). -/
def Obligations.ChannelsAndInputsAreRead : Prop :=
  (∀ (h : RequestHeader) (first : BitVec 16) (count : Byte) (extra : List Byte) (s : State), h.reserved = 0 →
     Executes h 0x03 (bytes16 first ++ [count] ++ extra) s →
     (1 ≤ count.toNat → count.toNat ≤ 16 → first.toNat + count.toNat ≤ 384 →
       ∃ (t : State) (records : List (List Byte)), exec (.readChannels h first count extra) s = .next t ∧ Settled (rxOf h.port) s t ∧
         OnlyAnswer s t ∧ Answered h 0x03 .ok (bytes16 first ++ [count] ++ records.flatten) [] s t ∧
         records.length = count.toNat ∧
         ∀ (i : Nat) (c : Fin Config.channels), c.val = first.toNat + i → i < count.toNat →
           let x := s.fades[c]
           records[i]? = some (([match x.phase with | .idle => 0 | .moving => 1 | .reversing => 2,
             match x.direction with | .up => 0 | .down => 1] : List Byte) ++ bytes16 (BitVec.ofNat 16 (x.position / 256)) ++
             [BitVec.ofNat 8 (x.position % 256)] ++ bytes24 (BitVec.ofNat 24 x.rate) ++ bytes16 s.targets[c].level ++
             [match s.targets[c].kind with | .park => 0 | .live => 1 | .held => 2 | .scene => 3,
               BitVec.ofNat 8 x.profile.val])) ∧
     (count.toNat < 1 ∨ 16 < count.toNat ∨ 384 < first.toNat + count.toNat →
       ∃ t, exec (.readChannels h first count extra) s = .next t ∧ Settled (rxOf h.port) s t ∧
         OnlyAnswer s t ∧ Answered h 0x03 .badArgument [] [] s t)) ∧
  (∀ (h : RequestHeader) (port : Byte) (first : BitVec 16) (count : Byte) (extra : List Byte) (s : State),
     h.reserved = 0 → Executes h 0x04 ([port] ++ bytes16 first ++ [count] ++ extra) s →
     (∀ p : Port, port = (if p = .a then 0 else 1) → 1 ≤ count.toNat → count.toNat ≤ 64 →
       first.toNat + count.toNat ≤ 384 →
       ∃ (t : State) (records : List (List Byte)), exec (.readInputs h port first count extra) s = .next t ∧ Settled (rxOf h.port) s t ∧
         OnlyAnswer s t ∧ Answered h 0x04 .ok ([port] ++ bytes16 first ++ [count] ++ records.flatten) [] s t ∧
         records.length = count.toNat ∧
         ∀ (i : Nat) (c : Fin Config.channels), c.val = first.toNat + i → i < count.toNat →
           records[i]? = some (bytes16 (s.ports.get p).slots[c].level ++
             [if (s.ports.get p).slots[c].valid then 1 else 0])) ∧
     (1 < port.toNat ∨ count.toNat < 1 ∨ 64 < count.toNat ∨ 384 < first.toNat + count.toNat →
       ∃ t, exec (.readInputs h port first count extra) s = .next t ∧ Settled (rxOf h.port) s t ∧
         OnlyAnswer s t ∧ Answered h 0x04 .badArgument [] [] s t))

/-- READ_TABLE with valid arguments is answered OK with the entries as held, of the bank named or of the scene store; a
banked table of the shadow is BUSY in COPYING; invalid arguments are BAD_ARGUMENT. The codes, sizes and limits of the
tables are those of R150, the layouts of the entries those of R210 to R213 (R144, R150, R176, R197, R206, R210 to
R213). -/
def Obligations.TablesAreRead : Prop :=
  TablesAsGiven ∧ LayoutsAsGiven ∧
  ∀ (h : RequestHeader) (bank table : Byte) (index : BitVec 16) (count : Byte) (extra : List Byte) (s : State),
    h.reserved = 0 → Executes h 0x05 ([bank, table] ++ bytes16 index ++ [count] ++ extra) s →
    (∀ tbl : TableName, table = tbl.code → bank.toNat ≤ 1 → 1 ≤ count.toNat → count.toNat ≤ tbl.perRequest →
      index.toNat + count.toNat ≤ tbl.entries →
      ∃ t, exec (.readTable h bank table index count extra) s = .next t ∧ Settled (rxOf h.port) s t ∧
        OnlyAnswer s t ∧
        (bank = 1 → tbl ≠ .scenes → (∃ n, s.session = .copying n) → Answered h 0x05 .busy [] [] s t) ∧
        (tbl = .scenes →
          Answered h 0x05 .ok ([table] ++ bytes16 index ++ [count] ++ readScenes index.toNat count.toNat s.scenes) []
            s t) ∧
        (bank = 0 → tbl ≠ .scenes →
          Answered h 0x05 .ok
            ([table] ++ bytes16 index ++ [count] ++ readBank tbl index.toNat count.toNat s.activeBank) [] s t) ∧
        (bank = 1 → tbl ≠ .scenes → (∀ n, s.session ≠ .copying n) →
          Answered h 0x05 .ok
            ([table] ++ bytes16 index ++ [count] ++ readBank tbl index.toNat count.toNat s.shadowBank) [] s t) ∧
        (tbl = .scenes → AreEntries tbl s.activeBank s.scenes index.toNat count.toNat
          (readScenes index.toNat count.toNat s.scenes)) ∧
        (tbl ≠ .scenes → ∀ b : Bank, AreEntries tbl b s.scenes index.toNat count.toNat
          (readBank tbl index.toNat count.toNat b))) ∧
    (1 < bank.toNat ∨ 4 < table.toNat ∨ count.toNat = 0 ∨
        (∃ tbl : TableName, table = tbl.code ∧
          (tbl.perRequest < count.toNat ∨ tbl.entries < index.toNat + count.toNat)) →
      ∃ t, exec (.readTable h bank table index count extra) s = .next t ∧ Settled (rxOf h.port) s t ∧
        OnlyAnswer s t ∧ Answered h 0x05 .badArgument [] [] s t)

/-! ## Load sessions -/

/-- OPEN_SESSION by the state of the session: it opens one, or restarts the owner's inactivity timer, or is refused
(R156, R161). -/
def Obligations.SessionsAreOpened : Prop :=
  ∀ (h : RequestHeader) (token : BitVec 16) (extra : List Byte) (s : State) (o : SessionOwner), h.reserved = 0 →
    Executes h 0x10 (bytes16 token ++ extra) s → o = ⟨h.port, token⟩ →
    ∃ t, exec (.openSession h token extra) s = .next t ∧ Settled (rxOf h.port) s t ∧
      OnlyAnswer { s with session := t.session, pointer := t.pointer } t ∧
      (token = 0 → Answered h 0x10 .badArgument [] [] s t ∧ t.session = s.session ∧ t.pointer = s.pointer) ∧
      (token ≠ 0 → match s.session with
        | .noSession => Answered h 0x10 .ok [] [] s t ∧ t.pointer = ⟨.config, 0⟩ ∧
            t.session = .opened o (s.now + s.config.sessionTimeout.toNat * 20000000)
        | .opened owner _ => t.pointer = s.pointer ∧
            (owner = o → Answered h 0x10 .ok [] [] s t ∧
              t.session = .opened o (s.now + s.config.sessionTimeout.toNat * 20000000)) ∧
            (owner ≠ o → Answered h 0x10 .locked [] [] s t ∧ t.session = s.session)
        | .verifying owner _ _ | .armed owner _ => t.pointer = s.pointer ∧ t.session = s.session ∧
            (owner = o → Answered h 0x10 .busy [] [] s t) ∧ (owner ≠ o → Answered h 0x10 .locked [] [] s t)
        | .copying _ => t.pointer = s.pointer ∧ t.session = s.session ∧ Answered h 0x10 .busy [] [] s t)

/-- WRITE_TABLE from the owner in OPEN on a banked table: each entry written, from the starting index and going on at
entry 0 after the last, then reads back as written in the shadow, all other entries as before; the write pointer and
the inactivity timer go on; the active bank does not change. In every other state of the session, and with invalid
arguments, it is refused without effect. The codes, sizes and limits of the tables are those of R150, the layouts of
the entries those of R210 to R213 (R150, R151, R157 to R161, R197, R206, R210 to R213). -/
def Obligations.WrittenEntriesReadBack : Prop :=
  TablesAsGiven ∧ LayoutsAsGiven ∧
  (∀ (h : RequestHeader) (token index : BitVec 16) (tbl : TableName) (count : Byte) (bytes : List Byte) (s : State)
     (n start : Nat), h.reserved = 0 →
     Executes h 0x11 (bytes16 token ++ [tbl.code] ++ bytes16 index ++ [count] ++ bytes) s →
     s.session = .opened ⟨h.port, token⟩ n → tbl ≠ .scenes →
     1 ≤ count.toNat → count.toNat ≤ tbl.perRequest → bytes.length = count.toNat * tbl.entrySize →
     (start = index.toNat ∧ index ≠ 0xFFFF) ∨ (index = 0xFFFF ∧ s.pointer = ⟨tbl, start⟩) → start < tbl.entries →
     ∃ t, exec (.writeTable h token tbl.code index count bytes) s = .next t ∧ Settled (rxOf h.port) s t ∧
       Answered h 0x11 .ok
         (tbl.code :: bytes16 (BitVec.ofNat 16 ((start + count.toNat) % tbl.entries))) [] s t ∧
       t.pointer = ⟨tbl, (start + count.toNat) % tbl.entries⟩ ∧
       t.session = .opened ⟨h.port, token⟩ (s.now + s.config.sessionTimeout.toNat * 20000000) ∧
       t.activeBank = s.activeBank ∧
       (∀ k, k < count.toNat → readBank tbl ((start + k) % tbl.entries) 1 t.shadowBank =
         (bytes.drop (k * tbl.entrySize)).take tbl.entrySize) ∧
       (∀ i, (∀ k, k < count.toNat → i ≠ (start + k) % tbl.entries) →
         readBank tbl i 1 t.shadowBank = readBank tbl i 1 s.shadowBank) ∧
       (∀ other i, other ≠ tbl → readBank other i 1 t.shadowBank = readBank other i 1 s.shadowBank) ∧
       OnlyAnswer { s with banks := t.banks, session := t.session, pointer := t.pointer } t) ∧
  (∀ (h : RequestHeader) (token index : BitVec 16) (table count : Byte) (bytes : List Byte) (s : State)
     (o : SessionOwner), h.reserved = 0 →
     Executes h 0x11 (bytes16 token ++ [table] ++ bytes16 index ++ [count] ++ bytes) s → o = ⟨h.port, token⟩ →
     (∀ n, s.session = .opened o n → 4 < table.toNat ∨ count.toNat = 0 ∨ ∃ tbl : TableName, table = tbl.code ∧
       (tbl.perRequest < count.toNat ∨ bytes.length ≠ count.toNat * tbl.entrySize ∨
         (index ≠ 0xFFFF ∧ tbl.entries ≤ index.toNat) ∨ (index = 0xFFFF ∧ s.pointer.table ≠ tbl))) →
     ∃ t r, exec (.writeTable h token table index count bytes) s = .next t ∧ Settled (rxOf h.port) s t ∧
       OnlyAnswer s t ∧ Answered h 0x11 r [] [] s t ∧
       match s.session with
       | .noSession => r = .noSession
       | .opened owner _ => r = if owner = o then .badArgument else .locked
       | .verifying owner _ _ | .armed owner _ => r = if owner = o then .busy else .locked
       | .copying _ => r = .busy)

/-- WRITE_TABLE from the owner in OPEN on SCENES writes the scene store at once, and the channels in SCENE whose entry of
the fallback scene was written are resolved, latching nothing; the write pointer and the inactivity timer go on (R59, R98,
R99, R159 to R161). -/
def Obligations.ScenesAreWrittenAtOnce : Prop :=
  ∀ (h : RequestHeader) (token index : BitVec 16) (count : Byte) (levels : List Level) (s : State)
    (n start : Nat), h.reserved = 0 →
    Executes h 0x11 (bytes16 token ++ [4] ++ bytes16 index ++ [count] ++ bytesOfHalves levels) s →
    s.session = .opened ⟨h.port, token⟩ n →
    1 ≤ count.toNat → count.toNat ≤ 64 → levels.length = count.toNat →
    (start = index.toNat ∧ index ≠ 0xFFFF) ∨ (index = 0xFFFF ∧ s.pointer = ⟨.scenes, start⟩) → start < 1536 →
    (∀ c : Fin Config.channels, resolveTarget s c s.targets[c] = s.targets[c]) →
    ∃ t, exec (.writeTable h token 4 index count (bytesOfHalves levels)) s = .next t ∧ Settled (rxOf h.port) s t ∧
      Answered h 0x11 .ok (4 :: bytes16 (BitVec.ofNat 16 ((start + count.toNat) % 1536))) [] s t ∧
      (∀ k v, levels[k]? = some v → ∀ (f : Fin 4) (c : Fin Config.channels),
        384 * f.val + c.val = (start + k) % 1536 → t.scenes[f][c] = v) ∧
      (∀ (f : Fin 4) (c : Fin Config.channels),
        (∀ k, k < count.toNat → 384 * f.val + c.val ≠ (start + k) % 1536) → t.scenes[f][c] = s.scenes[f][c]) ∧
      (∀ c : Fin Config.channels,
        if s.targets[c].kind = .scene then t.targets[c] = resolveTarget t c s.targets[c]
        else t.targets[c] = s.targets[c]) ∧
      t.pointer = ⟨.scenes, (start + count.toNat) % 1536⟩ ∧
      t.session = .opened ⟨h.port, token⟩ (s.now + s.config.sessionTimeout.toNat * 20000000) ∧
      OnlyAnswer { s with
        scenes := t.scenes, targets := t.targets, session := t.session, pointer := t.pointer } t

/-- COMMIT from the owner in OPEN is ACCEPTED and verification begins. ABORT_SESSION from the owner in OPEN or VERIFYING ends
the session with a bank copy. In every other case they are refused by the state of the session (R161, R163, R173,
R175). -/
def Obligations.CommitsAndAborts : Prop :=
  (∀ (h : RequestHeader) (token : BitVec 16) (expected : Crc32) (extra : List Byte) (s : State) (o : SessionOwner),
     h.reserved = 0 → Executes h 0x12 (bytes16 token ++ bytes32 expected ++ extra) s → o = ⟨h.port, token⟩ →
     ∃ t, exec (.commit h token expected extra) s = .next t ∧ Settled (rxOf h.port) s t ∧
       OnlyAnswer { s with session := t.session } t ∧
       match s.session with
       | .noSession => Answered h 0x12 .noSession [] [] s t ∧ t.session = s.session
       | .opened owner _ =>
         (owner = o → Answered h 0x12 .accepted [] [] s t ∧ t.session = .verifying o expected s.now) ∧
         (owner ≠ o → Answered h 0x12 .locked [] [] s t ∧ t.session = s.session)
       | .verifying owner _ _ | .armed owner _ => t.session = s.session ∧
         (owner = o → Answered h 0x12 .busy [] [] s t) ∧ (owner ≠ o → Answered h 0x12 .locked [] [] s t)
       | .copying _ => Answered h 0x12 .busy [] [] s t ∧ t.session = s.session) ∧
  (∀ (h : RequestHeader) (token : BitVec 16) (extra : List Byte) (s : State) (o : SessionOwner),
     h.reserved = 0 → Executes h 0x13 (bytes16 token ++ extra) s → o = ⟨h.port, token⟩ →
     ∃ t, exec (.abortSession h token extra) s = .next t ∧ Settled (rxOf h.port) s t ∧
       OnlyAnswer { s with session := t.session } t ∧
       match s.session with
       | .noSession => Answered h 0x13 .noSession [] [] s t ∧ t.session = s.session
       | .copying _ => Answered h 0x13 .busy [] [] s t ∧ t.session = s.session
       | .opened owner _ | .verifying owner _ _ =>
         (owner = o → Answered h 0x13 .ok [] [] s t ∧ t.session = .copying s.now) ∧
         (owner ≠ o → Answered h 0x13 .locked [] [] s t ∧ t.session = s.session)
       | .armed owner _ => t.session = s.session ∧
         (owner = o → Answered h 0x13 .tooLate [] [] s t) ∧ (owner ≠ o → Answered h 0x13 .locked [] [] s t))

/-- SESSION_EXPIRY ends the session with SESSION_EXPIRED and a bank copy (R162); VERIFICATION_COMPLETE arms the session,
or returns it to OPEN with COMMIT_FAILED and the failure as outcome (R163, R165, R169, R170). The instants, with no bound
of 1 ms on a completion that a sender commands, are the model's choice (log entries 1 and 4). -/
def Obligations.SessionTimersRunOut : Prop :=
  (∀ (o : SessionOwner) (n : Nat) (s : State), s.inReset = false → s.session = .opened o n →
    ∃ t, exec .sessionExpiry s = .next t ∧ t.now = max s.now n ∧ t.session = .copying t.now ∧ t.rx = s.rx ∧
      Latches [.sessionExpired] s t ∧ OnlyReceiversAndConditions { s with now := t.now, session := t.session } t) ∧
  (∀ (o : SessionOwner) (k : Crc32) (n : Nat) (s : State), s.inReset = false → s.session = .verifying o k n →
    verify s.shadowBank k = none →
    exec .verificationComplete s = .next { s with now := max s.now (n + 1), session := .armed o k }) ∧
  (∀ (o : SessionOwner) (k : Crc32) (n : Nat) (s : State) (f : Failure), s.inReset = false →
    s.session = .verifying o k n → verify s.shadowBank k = some f →
    ∃ t, exec .verificationComplete s = .next t ∧ t.now = max s.now (n + 1) ∧ t.outcome = .failed f ∧ t.rx = s.rx ∧
      t.session = .opened o (t.now + s.config.sessionTimeout.toNat * 20000000) ∧ Latches [.commitFailed] s t ∧
      OnlyReceiversAndConditions { s with now := t.now, session := t.session, outcome := t.outcome } t)

/-- Verification finds the first failing entry in table and index order, by the first check of the entry that fails,
and compares the checksum only when every entry has passed (R165). The checks of a CONFIG entry, a MAP entry and a
PROFILES record, in their order (R166 to R168, R41, R211, R214, R215). The CRC-32 is the one of R164, over the image of
R151 with the layouts of R210 to R213. -/
def Obligations.VerificationFindsTheFirstFailure : Prop :=
  Crc32AsGiven ∧ LayoutsAsGiven ∧
  ∀ (b : Bank) (k : Crc32),
    ImageAsGiven b ∧
    (∀ f, verify b k = some f →
      (f = ⟨.checksum, none⟩ ∧ crc32 b.image ≠ k ∧ checkConfig b.config = none ∧
        (∀ i : Fin Config.channels, checkMap b.map[i] = none) ∧ ∀ i : Fin 16, checkProfile b.profiles[i] = none) ∨
      (∃ reason, f = ⟨reason, some ⟨.config, 0⟩⟩ ∧ checkConfig b.config = some reason) ∨
      (∃ reason, ∃ i : Fin Config.channels, f = ⟨reason, some ⟨.map, i.val⟩⟩ ∧ checkMap b.map[i] = some reason ∧
        checkConfig b.config = none ∧ ∀ j : Fin Config.channels, j < i → checkMap b.map[j] = none) ∨
      (∃ reason, ∃ i : Fin 16, f = ⟨reason, some ⟨.profiles, i.val⟩⟩ ∧ checkProfile b.profiles[i] = some reason ∧
        checkConfig b.config = none ∧ (∀ j : Fin Config.channels, checkMap b.map[j] = none) ∧
        ∀ j : Fin 16, j < i → checkProfile b.profiles[j] = none)) ∧
    (verify b k = none ↔ crc32 b.image = k ∧ checkConfig b.config = none ∧
      (∀ i : Fin Config.channels, checkMap b.map[i] = none) ∧ ∀ i : Fin 16, checkProfile b.profiles[i] = none) ∧
    (∀ c : ConfigRecord, FirstFails
      [ (15 < c.outputStream.toNat ∨ 15 < c.accepted.a.toNat ∨ 15 < c.accepted.b.toNat, .stream),
        (c.outputLength.toNat < 1 ∨ 384 < c.outputLength.toNat, .outputLength),
        (c.refreshPeriod.toNat < 1 ∨ 100 < c.refreshPeriod.toNat, .refresh),
        (c.tickPeriod.toNat < 1 ∨ 16 < c.tickPeriod.toNat, .tick),
        (c.lossTime.a = 0 ∨ c.lossTime.b = 0, .lossTime),
        (c.acquireCount.toNat < 1 ∨ 8 < c.acquireCount.toNat, .acquire),
        (c.fallbackScene ≠ 0xFF ∧ 3 < c.fallbackScene.toNat, .fallbackScene),
        (15 < c.fallbackProfile.toNat, .fallbackProfile),
        (c.sessionTimeout.toNat < 1 ∨ 60 < c.sessionTimeout.toNat, .sessionTimeout),
        (8 < c.summaryLength.toNat ∨ ∃ i : Fin 8, i.val < c.summaryLength.toNat ∧ 15 < c.summary[i].toNat,
          .summaryList),
        (c.reserved3 ≠ 0 ∨ c.reserved30 ≠ 0 ∨ 1 < c.forwardEnable.toNat ∨
          ∃ i : Fin 8, c.summaryLength.toNat ≤ i.val ∧ c.summary[i] ≠ 0, .reserved) ]
      (checkConfig c)) ∧
    (∀ e : MapEntry, FirstFails
      [ (4 < e.rule.toNat, .mergeRule),
        (¬ ((e.source1.getLsbD 15 = true ↔ 1 ≤ e.rule.toNat) ∧ (e.source2.getLsbD 15 = true ↔ 2 ≤ e.rule.toNat)),
          .sources),
        (∃ f ∈ [e.source1, e.source2], f.getLsbD 15 = true ∧
          (1 < (f.extractLsb' 9 6).toNat ∨ 384 ≤ (f.extractLsb' 0 9).toNat), .source),
        (8 < e.curve.toNat, .curve),
        (15 < e.profile.toNat, .profile),
        (e.reserved ≠ 0, .reserved) ]
      (checkMap e)) ∧
    (∀ r : ProfileRecord, FirstFails
      [ (2 < r.kind.toNat, .kind),
        (r.kind ≠ 0 ∧ r.maxRate = 0, .maxRate),
        (r.kind = 2 ∧ (r.floorRate = 0 ∨ r.maxRate.toNat < r.floorRate.toNat), .floorRate),
        (r.kind = 2 ∧ r.maxRate.toNat < r.startRate.toNat, .startRate),
        (r.kind = 2 ∧ r.maxRate.toNat < r.breakRate.toNat, .breakRate),
        (r.kind = 2 ∧ (r.accelLow = 0 ∨ r.accelHigh = 0), .accel),
        (r.kind = 2 ∧ (r.decelLow = 0 ∨ r.decelHigh = 0), .decel),
        (r.reserved1 ≠ 0 ∨ r.reserved22 ≠ 0, .reserved) ]
      (checkProfile r))

/-- COPY_COMPLETE makes the shadow equal the active bank entry for entry and the state NONE; it latches nothing, leaves the
last commit outcome, and an OPEN_SESSION can then open a session (R156, R173, R174). Its instant, with no bound of 1 ms on
a completion that a sender commands, is the model's choice (log entry 4). -/
def Obligations.CopyRestoresTheShadow : Prop :=
  ∀ (n : Nat) (s : State), s.inReset = false → s.session = .copying n →
    ∃ t, exec .copyComplete s = .next t ∧ t.shadowBank = s.activeBank ∧ t.activeBank = s.activeBank ∧
      t.session = .noSession ∧ t = { s with now := max s.now (n + 1), banks := t.banks, session := .noSession } ∧
      ∀ (h : RequestHeader) (token : BitVec 16), h.reserved = 0 → token ≠ 0 → Executes h 0x10 (bytes16 token) t →
        ∃ u, exec (.openSession h token []) t = .next u ∧ Answered h 0x10 .ok [] [] t u ∧
          ∃ m, u.session = .opened ⟨h.port, token⟩ m

/-! ## Channels, scenes and conditions -/

/-- FORCE within its range parks the channels and resolves them to PARK at once. RELEASE within its range clears the park
records and resolves the channels, which may enter SCENE with FALLBACK. Outside it each is BAD_ARGUMENT and has no effect
(R54, R57, R59, R92, R93, R95, R214). That a map profile above 15, which no verified set holds, counts modulo 16 is the
model's choice (log entry 8). -/
def Obligations.ParksAndReleases : Prop :=
  (∀ (h : RequestHeader) (first count : BitVec 16) (level : Level) (profile : Byte) (extra : List Byte) (s : State),
     h.reserved = 0 →
     Executes h 0x20 (bytes16 first ++ bytes16 count ++ bytes16 level ++ [profile] ++ extra) s →
     (1 ≤ count.toNat → first.toNat + count.toNat ≤ 384 → profile = 0xFF ∨ profile.toNat ≤ 15 →
       ∃ t, exec (.force h first count level profile extra) s = .next t ∧ Settled (rxOf h.port) s t ∧
         Answered h 0x20 .ok [] [] s t ∧ OnlyAnswer { s with parks := t.parks, targets := t.targets } t ∧
         ∀ c : Fin Config.channels,
           if first.toNat ≤ c.val ∧ c.val < first.toNat + count.toNat then
             t.parks[c].parked = true ∧ t.parks[c].level = level ∧
             t.parks[c].profile.map Fin.val = (if profile = 0xFF then none else some profile.toNat) ∧
             t.targets[c].level = level ∧ t.targets[c].kind = .park ∧ t.targets[c].owner = s.targets[c].owner ∧
             t.targets[c].profile.val =
               (if profile = 0xFF then s.activeBank.map[c].profile.toNat % 16 else profile.toNat)
           else t.parks[c] = s.parks[c] ∧ t.targets[c] = s.targets[c]) ∧
     (count.toNat = 0 ∨ 384 < first.toNat + count.toNat ∨ (profile ≠ 0xFF ∧ 15 < profile.toNat) →
       ∃ t, exec (.force h first count level profile extra) s = .next t ∧ Settled (rxOf h.port) s t ∧
         OnlyAnswer s t ∧ Answered h 0x20 .badArgument [] [] s t)) ∧
  (∀ (h : RequestHeader) (first count : BitVec 16) (extra : List Byte) (s : State), h.reserved = 0 →
     Executes h 0x21 (bytes16 first ++ bytes16 count ++ extra) s →
     (1 ≤ count.toNat → first.toNat + count.toNat ≤ 384 →
       ∃ t more, exec (.release h first count extra) s = .next t ∧ Settled (rxOf h.port) s t ∧
         Answered h 0x21 .ok [] more s t ∧ more.length ≤ 1 ∧
         (∀ e ∈ more, ∃ y, e = (.notice s.node .fallback y, .a)) ∧
         OnlyAnswerAndConditions { s with parks := t.parks, targets := t.targets } t ∧
         (∀ k, hasKind t.latched k = true ↔ hasKind s.latched k = true ∨ (k = .fallback ∧ EntersScene s t)) ∧
         CarriedWithFallback s s.conditions []
           [(.reply ⟨s.node, h.tag, 0x21, .ok, t.summaryByte, []⟩, h.port)] t ∧
         ∀ c : Fin Config.channels,
           if first.toNat ≤ c.val ∧ c.val < first.toNat + count.toNat then
             t.parks[c] = ⟨false, 0, none⟩ ∧ t.targets[c] = resolveTarget t c s.targets[c]
           else t.parks[c] = s.parks[c] ∧ t.targets[c] = s.targets[c]) ∧
     (count.toNat = 0 ∨ 384 < first.toNat + count.toNat →
       ∃ t, exec (.release h first count extra) s = .next t ∧ Settled (rxOf h.port) s t ∧
         OnlyAnswer s t ∧ Answered h 0x21 .badArgument [] [] s t))

/-- SAVE_SCENE captures the present level of every channel into the scene and resolves the channels in SCENE when it is
the fallback scene; an id above 3 is BAD_ARGUMENT and has no effect (R59, R97, R98). -/
def Obligations.SaveSceneCapturesTheLevels : Prop :=
  ∀ (h : RequestHeader) (scene : Byte) (extra : List Byte) (s : State), h.reserved = 0 →
    Executes h 0x22 (scene :: extra) s →
    (scene.toNat ≤ 3 →
      ∃ t, exec (.saveScene h scene extra) s = .next t ∧ Settled (rxOf h.port) s t ∧
        Answered h 0x22 .ok [] [] s t ∧ OnlyAnswer { s with scenes := t.scenes, targets := t.targets } t ∧
        (∀ (f : Fin 4) (c : Fin Config.channels), t.scenes[f][c] =
          if f.val = scene.toNat then BitVec.ofNat 16 (s.fades[c].position / 256) else s.scenes[f][c]) ∧
        ∀ c : Fin Config.channels,
          if s.targets[c].kind = .scene ∧ s.config.fallbackScene = scene then
            t.targets[c] = resolveTarget t c s.targets[c]
          else t.targets[c] = s.targets[c]) ∧
    (3 < scene.toNat →
      ∃ t, exec (.saveScene h scene extra) s = .next t ∧ Settled (rxOf h.port) s t ∧
        OnlyAnswer s t ∧ Answered h 0x22 .badArgument [] [] s t)

/-- ACK_CONDITIONS removes its kinds from the latched and the pending-notice set, evaluates ALERT, and leaves the queued
notices; its reply shows the kinds clear (R185, R187). -/
def Obligations.AcknowledgedKindsAreCleared : Prop :=
  ∀ (h : RequestHeader) (kinds : KindSet) (extra : List Byte) (s : State), h.reserved = 0 →
    Executes h 0x30 (bytes16 kinds ++ extra) s →
    ∃ t, exec (.ackConditions h kinds extra) s = .next t ∧ Settled (rxOf h.port) s t ∧
      Answered h 0x30 .ok [] [] s t ∧ OnlyAnswerAndConditions s t ∧ t.AlertFollows ∧
      (∀ k, hasKind t.latched k = true ↔ hasKind s.latched k = true ∧ hasKind kinds k = false) ∧
      (∀ k, hasKind t.pendingNotices k = true ↔ hasKind s.pendingNotices k = true ∧ hasKind kinds k = false)

/-- An addressed RESTART restarts every block, empties the queue and the replay records, and is answered; the kinds it
latches are FALLBACK and PAUSED, in this order, their notices behind the reply; banks, scenes, fades, timers, the output
frame and its sequence number, the node address and a frame being sent stand; no entry that waited is sent; and the return
preference changes only where A-return-tx takes (R17, R37, R63, R89, R91, R121, R140, R145, R147, R180, R183, R195). That the
frame of a reply taken at the same instant is among those that stand is read from R17 and R145 (log entry 17). -/
def Obligations.RestartIsWarm : Prop :=
  ∀ (h : RequestHeader) (extra : List Byte) (s : State), h.reserved = 0 → Executes h 0x31 extra s →
    ∃ t more, exec (.restart h extra) s = .next t ∧ Settled (rxOf h.port) s t ∧
      entries t.queue = (.reply ⟨s.node, h.tag, 0x31, .ok, t.summaryByte, []⟩, h.port) :: more ∧
      more.length ≤ 2 ∧ (∀ e ∈ more, ∃ k y, (k = .fallback ∨ k = .paused) ∧ e = (.notice s.node k y, .a)) ∧
      (∀ p, t.replay.get p =
        if p = h.port then some ⟨h.tag, 0x31, ⟨s.node, h.tag, 0x31, .ok, t.summaryByte, []⟩⟩ else none) ∧
      (∀ p, (t.ports.get p).state = .silent ∧ (t.ports.get p).acquired = 0 ∧ (t.ports.get p).lossAt = none ∧
        (t.ports.get p).holdAt = none ∧ (t.ports.get p).lastSequence = (s.ports.get p).lastSequence ∧
        Invalidated (s.ports.get p).slots (t.ports.get p).slots) ∧
      (∀ c : Fin Config.channels, t.parks[c] = ⟨false, 0, none⟩ ∧
        t.targets[c] = resolveTarget t c { s.targets[c] with owner := .nobody }) ∧
      t.missed = 0 ∧ t.forward = [] ∧ t.relay = [] ∧ t.pointer = ⟨.config, 0⟩ ∧
      t.session = (if s.session = .noSession then .noSession else .copying s.now) ∧
      t.pendingNotices = 0 ∧ t.AlertFollows ∧
      (∀ k, hasKind t.latched k = true ↔ (k = .fallback ∧ EntersScene s t) ∨ (k = .paused ∧ s.pause = true)) ∧
      CarriedWithFallback s ⟨0, 0, false, []⟩ (if s.pause then [.paused] else [])
        [(.reply ⟨s.node, h.tag, 0x31, .ok, t.summaryByte, []⟩, h.port)] t ∧
      OnlyAnswerAndConditions { s with
        ports := t.ports
        parks := t.parks
        targets := t.targets
        missed := t.missed
        forward := t.forward
        relay := []
        queue := []
        session := t.session
        pointer := t.pointer } t

/-- The kinds have the numbers of R182, and kind k is bit k of a set. Bit i of the summary byte is 1 exactly when the
summary selection has an entry i and its kind is latched (R182, R186, R197). -/
def Obligations.SummaryByteShowsTheSelection : Prop :=
  KindsAsGiven ∧
  ∀ (s : State) (i : Fin 8), s.summaryByte.getLsbD i.val = true ↔
    i.val < s.config.summaryLength.toNat ∧
      ∃ k : Condition, k.number = s.config.summary[i].toNat ∧ hasKind s.latched k = true

/-! ## Invariants of the part -/

/-- The state after reset has every invariant below. -/
def Obligations.ResetIsSound : Prop :=
  State.reset.WithinCapacity ∧ State.reset.NothingWaitsForFree ∧ State.reset.SendingIsOnLine ∧
  State.reset.AlertFollows ∧ State.reset.NoticesOnce ∧ State.reset.ProgramSound ∧
  State.reset.DefaultsUnderReset ∧ State.reset.PointerInRange ∧
  State.reset.PortsSound ∧ State.reset.TargetsResolved ∧ State.reset.OwnersSound ∧ State.reset.FadesInRange ∧
  State.reset.NodeInRange

/-- Every step keeps the reply queue within 8 entries, each FIFO within 4 frames, the missed-refresh count within 65535, the
node address within 1 to 63 and the write pointer on an entry of its table (R108, R116, R118, R127, R136, R159). -/
def Obligations.RangesHold : Prop :=
  KeptByEveryStep State.WithinCapacity ∧ KeptByEveryStep State.NodeInRange ∧ KeptByEveryStep State.PointerInRange

/-- Every step keeps that no transmitter in FREE leaves a frame waiting; and that what is called SENDING is on its line, at
most one entry for each return line, and nothing while RESET is asserted (R15, R112, R113, R116, R119, R120, R137 to
R139, R148). -/
def Obligations.TransmittersAgreeWithTheirSources : Prop :=
  KeptByEveryStep State.NothingWaitsForFree ∧ KeptByEveryStep State.SendingIsOnLine

/-- Every step keeps ALERT as the latched set and the alert mask of the active bank have it (R187). -/
def Obligations.AlertFollowsTheLatchedSet : Prop := KeptByEveryStep State.AlertFollows

/-- Every step keeps at most one notice for each kind queued or pending, pending kinds latched, and kinds pending only
while the queue is full (R185, R189, R190). -/
def Obligations.NoticesAreOwedOnce : Prop :=
  KeptByEveryStep fun s => s.NoticesOnce ∧ s.WithinCapacity

/-- Every step keeps the program in force verified under the checksum that IDENTIFY reports, the shadow equal to it while
there is no session, and an ARMED shadow verified under its committed checksum; and while RESET is asserted every step
keeps the default set in both banks and bank 0 active (R154, R165, R170, R171, R174, R179). -/
def Obligations.RunningProgramIsVerified : Prop :=
  KeptByEveryStep State.ProgramSound ∧ KeptByEveryStep State.DefaultsUnderReset

/-- Every step keeps the port units sound: which timers run in which state, and no valid slot in SILENT or RELEASED (R22,
R24 to R30, R33, R37). -/
def Obligations.PortUnitsStaySound : Prop := KeptByEveryStep State.PortsSound

/-- Every step keeps every target record what a resolution of its channel would give, and no owner on a channel whose rule
is not LATEST: every event that could change the answer resolves the channels concerned (R47, R53 to R60). -/
def Obligations.TargetsStayResolved : Prop :=
  KeptByEveryStep fun s => s.TargetsResolved ∧ s.OwnersSound

/-- Every step keeps positions, rates and aims within their ranges, and the rate 0 in IDLE (R64, R65). -/
def Obligations.FadesStayInRange : Prop := KeptByEveryStep State.FadesInRange

/-! ## The part as a whole -/

/-- Only a fade tick, which may fall within a changeover (log entry 9), and a hard reset change a fade context; only an
output snapshot with a session ARMED and a hard reset change the program in force and its checksum (R61, R69, R87, R89,
R160, R171, R173, R180). -/
def Obligations.OnlyTheirEventsChangeFadesAndProgram : Prop :=
  (∀ (c : Instr) (s t : State), c ≠ .fadeTick → c ≠ .hardReset →
     (c = .refreshExpiry → s.output = .empty → ∀ o k, s.session = .armed o k →
       ∀ n m, s.refreshAt = some n → s.tickAt = some m → max s.now n < m) →
     exec c s = .next t → t.fades = s.fades) ∧
  (∀ (c : Instr) (s t : State), c ≠ .hardReset →
     (c = .refreshExpiry → ∀ o k, s.session ≠ .armed o k) → exec c s = .next t →
     t.active = s.active ∧ t.activeBank = s.activeBank ∧ t.checksum = s.checksum)

end
end

