-- ==== Sys2Proof/Laws/State.lean ====
section
/-! SUPPORT. What each named update of the state leaves in each field, one lemma per field per update; and reading one
entry of a pair or triple after writing one. -/

namespace Sys2Proof.Machine

variable (s : State)

/-! ## setRx -/

@[simp] theorem setRx_now (r : Receiver) (v : Rx) : (s.setRx r v).now = s.now := rfl
@[simp] theorem setRx_choices (r : Receiver) (v : Rx) : (s.setRx r v).choices = s.choices := rfl
@[simp] theorem setRx_inReset (r : Receiver) (v : Rx) : (s.setRx r v).inReset = s.inReset := rfl
@[simp] theorem setRx_rx (r : Receiver) (v : Rx) : (s.setRx r v).rx = s.rx.set r v := rfl
@[simp] theorem setRx_tx (r : Receiver) (v : Rx) : (s.setRx r v).tx = s.tx := rfl
@[simp] theorem setRx_ports (r : Receiver) (v : Rx) : (s.setRx r v).ports = s.ports := rfl
@[simp] theorem setRx_targets (r : Receiver) (v : Rx) : (s.setRx r v).targets = s.targets := rfl
@[simp] theorem setRx_parks (r : Receiver) (v : Rx) : (s.setRx r v).parks = s.parks := rfl
@[simp] theorem setRx_fades (r : Receiver) (v : Rx) : (s.setRx r v).fades = s.fades := rfl
@[simp] theorem setRx_tickAt (r : Receiver) (v : Rx) : (s.setRx r v).tickAt = s.tickAt := rfl
@[simp] theorem setRx_scenes (r : Receiver) (v : Rx) : (s.setRx r v).scenes = s.scenes := rfl
@[simp] theorem setRx_refreshAt (r : Receiver) (v : Rx) : (s.setRx r v).refreshAt = s.refreshAt := rfl
@[simp] theorem setRx_output (r : Receiver) (v : Rx) : (s.setRx r v).output = s.output := rfl
@[simp] theorem setRx_nextSequence (r : Receiver) (v : Rx) : (s.setRx r v).nextSequence = s.nextSequence := rfl
@[simp] theorem setRx_missed (r : Receiver) (v : Rx) : (s.setRx r v).missed = s.missed := rfl
@[simp] theorem setRx_forward (r : Receiver) (v : Rx) : (s.setRx r v).forward = s.forward := rfl
@[simp] theorem setRx_relay (r : Receiver) (v : Rx) : (s.setRx r v).relay = s.relay := rfl
@[simp] theorem setRx_node (r : Receiver) (v : Rx) : (s.setRx r v).node = s.node := rfl
@[simp] theorem setRx_queue (r : Receiver) (v : Rx) : (s.setRx r v).queue = s.queue := rfl
@[simp] theorem setRx_replay (r : Receiver) (v : Rx) : (s.setRx r v).replay = s.replay := rfl
@[simp] theorem setRx_preference (r : Receiver) (v : Rx) : (s.setRx r v).preference = s.preference := rfl
@[simp] theorem setRx_banks (r : Receiver) (v : Rx) : (s.setRx r v).banks = s.banks := rfl
@[simp] theorem setRx_active (r : Receiver) (v : Rx) : (s.setRx r v).active = s.active := rfl
@[simp] theorem setRx_checksum (r : Receiver) (v : Rx) : (s.setRx r v).checksum = s.checksum := rfl
@[simp] theorem setRx_session (r : Receiver) (v : Rx) : (s.setRx r v).session = s.session := rfl
@[simp] theorem setRx_pointer (r : Receiver) (v : Rx) : (s.setRx r v).pointer = s.pointer := rfl
@[simp] theorem setRx_outcome (r : Receiver) (v : Rx) : (s.setRx r v).outcome = s.outcome := rfl
@[simp] theorem setRx_latched (r : Receiver) (v : Rx) : (s.setRx r v).latched = s.latched := rfl
@[simp] theorem setRx_pendingNotices (r : Receiver) (v : Rx) : (s.setRx r v).pendingNotices = s.pendingNotices := rfl
@[simp] theorem setRx_pause (r : Receiver) (v : Rx) : (s.setRx r v).pause = s.pause := rfl
@[simp] theorem setRx_alert (r : Receiver) (v : Rx) : (s.setRx r v).alert = s.alert := rfl
@[simp] theorem setRx_pending (r : Receiver) (v : Rx) : (s.setRx r v).pending = s.pending := rfl
@[simp] theorem setRx_config (r : Receiver) (v : Rx) : (s.setRx r v).config = s.config := rfl
@[simp] theorem setRx_activeBank (r : Receiver) (v : Rx) : (s.setRx r v).activeBank = s.activeBank := rfl
@[simp] theorem setRx_shadowBank (r : Receiver) (v : Rx) : (s.setRx r v).shadowBank = s.shadowBank := rfl
@[simp] theorem setRx_summaryByte (r : Receiver) (v : Rx) : (s.setRx r v).summaryByte = s.summaryByte := rfl

/-! ## setTx -/

@[simp] theorem setTx_now (t : Transmitter) (v : Tx) : (s.setTx t v).now = s.now := rfl
@[simp] theorem setTx_choices (t : Transmitter) (v : Tx) : (s.setTx t v).choices = s.choices := rfl
@[simp] theorem setTx_inReset (t : Transmitter) (v : Tx) : (s.setTx t v).inReset = s.inReset := rfl
@[simp] theorem setTx_rx (t : Transmitter) (v : Tx) : (s.setTx t v).rx = s.rx := rfl
@[simp] theorem setTx_tx (t : Transmitter) (v : Tx) : (s.setTx t v).tx = s.tx.set t v := rfl
@[simp] theorem setTx_ports (t : Transmitter) (v : Tx) : (s.setTx t v).ports = s.ports := rfl
@[simp] theorem setTx_targets (t : Transmitter) (v : Tx) : (s.setTx t v).targets = s.targets := rfl
@[simp] theorem setTx_parks (t : Transmitter) (v : Tx) : (s.setTx t v).parks = s.parks := rfl
@[simp] theorem setTx_fades (t : Transmitter) (v : Tx) : (s.setTx t v).fades = s.fades := rfl
@[simp] theorem setTx_tickAt (t : Transmitter) (v : Tx) : (s.setTx t v).tickAt = s.tickAt := rfl
@[simp] theorem setTx_scenes (t : Transmitter) (v : Tx) : (s.setTx t v).scenes = s.scenes := rfl
@[simp] theorem setTx_refreshAt (t : Transmitter) (v : Tx) : (s.setTx t v).refreshAt = s.refreshAt := rfl
@[simp] theorem setTx_output (t : Transmitter) (v : Tx) : (s.setTx t v).output = s.output := rfl
@[simp] theorem setTx_nextSequence (t : Transmitter) (v : Tx) : (s.setTx t v).nextSequence = s.nextSequence := rfl
@[simp] theorem setTx_missed (t : Transmitter) (v : Tx) : (s.setTx t v).missed = s.missed := rfl
@[simp] theorem setTx_forward (t : Transmitter) (v : Tx) : (s.setTx t v).forward = s.forward := rfl
@[simp] theorem setTx_relay (t : Transmitter) (v : Tx) : (s.setTx t v).relay = s.relay := rfl
@[simp] theorem setTx_node (t : Transmitter) (v : Tx) : (s.setTx t v).node = s.node := rfl
@[simp] theorem setTx_queue (t : Transmitter) (v : Tx) : (s.setTx t v).queue = s.queue := rfl
@[simp] theorem setTx_replay (t : Transmitter) (v : Tx) : (s.setTx t v).replay = s.replay := rfl
@[simp] theorem setTx_preference (t : Transmitter) (v : Tx) : (s.setTx t v).preference = s.preference := rfl
@[simp] theorem setTx_banks (t : Transmitter) (v : Tx) : (s.setTx t v).banks = s.banks := rfl
@[simp] theorem setTx_active (t : Transmitter) (v : Tx) : (s.setTx t v).active = s.active := rfl
@[simp] theorem setTx_checksum (t : Transmitter) (v : Tx) : (s.setTx t v).checksum = s.checksum := rfl
@[simp] theorem setTx_session (t : Transmitter) (v : Tx) : (s.setTx t v).session = s.session := rfl
@[simp] theorem setTx_pointer (t : Transmitter) (v : Tx) : (s.setTx t v).pointer = s.pointer := rfl
@[simp] theorem setTx_outcome (t : Transmitter) (v : Tx) : (s.setTx t v).outcome = s.outcome := rfl
@[simp] theorem setTx_latched (t : Transmitter) (v : Tx) : (s.setTx t v).latched = s.latched := rfl
@[simp] theorem setTx_pendingNotices (t : Transmitter) (v : Tx) : (s.setTx t v).pendingNotices = s.pendingNotices := rfl
@[simp] theorem setTx_pause (t : Transmitter) (v : Tx) : (s.setTx t v).pause = s.pause := rfl
@[simp] theorem setTx_alert (t : Transmitter) (v : Tx) : (s.setTx t v).alert = s.alert := rfl
@[simp] theorem setTx_pending (t : Transmitter) (v : Tx) : (s.setTx t v).pending = s.pending := rfl
@[simp] theorem setTx_config (t : Transmitter) (v : Tx) : (s.setTx t v).config = s.config := rfl
@[simp] theorem setTx_activeBank (t : Transmitter) (v : Tx) : (s.setTx t v).activeBank = s.activeBank := rfl
@[simp] theorem setTx_shadowBank (t : Transmitter) (v : Tx) : (s.setTx t v).shadowBank = s.shadowBank := rfl
@[simp] theorem setTx_summaryByte (t : Transmitter) (v : Tx) : (s.setTx t v).summaryByte = s.summaryByte := rfl

/-! ## setPort -/

@[simp] theorem setPort_now (p : Port) (v : PortUnit) : (s.setPort p v).now = s.now := rfl
@[simp] theorem setPort_choices (p : Port) (v : PortUnit) : (s.setPort p v).choices = s.choices := rfl
@[simp] theorem setPort_inReset (p : Port) (v : PortUnit) : (s.setPort p v).inReset = s.inReset := rfl
@[simp] theorem setPort_rx (p : Port) (v : PortUnit) : (s.setPort p v).rx = s.rx := rfl
@[simp] theorem setPort_tx (p : Port) (v : PortUnit) : (s.setPort p v).tx = s.tx := rfl
@[simp] theorem setPort_ports (p : Port) (v : PortUnit) : (s.setPort p v).ports = s.ports.set p v := rfl
@[simp] theorem setPort_targets (p : Port) (v : PortUnit) : (s.setPort p v).targets = s.targets := rfl
@[simp] theorem setPort_parks (p : Port) (v : PortUnit) : (s.setPort p v).parks = s.parks := rfl
@[simp] theorem setPort_fades (p : Port) (v : PortUnit) : (s.setPort p v).fades = s.fades := rfl
@[simp] theorem setPort_tickAt (p : Port) (v : PortUnit) : (s.setPort p v).tickAt = s.tickAt := rfl
@[simp] theorem setPort_scenes (p : Port) (v : PortUnit) : (s.setPort p v).scenes = s.scenes := rfl
@[simp] theorem setPort_refreshAt (p : Port) (v : PortUnit) : (s.setPort p v).refreshAt = s.refreshAt := rfl
@[simp] theorem setPort_output (p : Port) (v : PortUnit) : (s.setPort p v).output = s.output := rfl
@[simp] theorem setPort_nextSequence (p : Port) (v : PortUnit) : (s.setPort p v).nextSequence = s.nextSequence := rfl
@[simp] theorem setPort_missed (p : Port) (v : PortUnit) : (s.setPort p v).missed = s.missed := rfl
@[simp] theorem setPort_forward (p : Port) (v : PortUnit) : (s.setPort p v).forward = s.forward := rfl
@[simp] theorem setPort_relay (p : Port) (v : PortUnit) : (s.setPort p v).relay = s.relay := rfl
@[simp] theorem setPort_node (p : Port) (v : PortUnit) : (s.setPort p v).node = s.node := rfl
@[simp] theorem setPort_queue (p : Port) (v : PortUnit) : (s.setPort p v).queue = s.queue := rfl
@[simp] theorem setPort_replay (p : Port) (v : PortUnit) : (s.setPort p v).replay = s.replay := rfl
@[simp] theorem setPort_preference (p : Port) (v : PortUnit) : (s.setPort p v).preference = s.preference := rfl
@[simp] theorem setPort_banks (p : Port) (v : PortUnit) : (s.setPort p v).banks = s.banks := rfl
@[simp] theorem setPort_active (p : Port) (v : PortUnit) : (s.setPort p v).active = s.active := rfl
@[simp] theorem setPort_checksum (p : Port) (v : PortUnit) : (s.setPort p v).checksum = s.checksum := rfl
@[simp] theorem setPort_session (p : Port) (v : PortUnit) : (s.setPort p v).session = s.session := rfl
@[simp] theorem setPort_pointer (p : Port) (v : PortUnit) : (s.setPort p v).pointer = s.pointer := rfl
@[simp] theorem setPort_outcome (p : Port) (v : PortUnit) : (s.setPort p v).outcome = s.outcome := rfl
@[simp] theorem setPort_latched (p : Port) (v : PortUnit) : (s.setPort p v).latched = s.latched := rfl
@[simp] theorem setPort_pendingNotices (p : Port) (v : PortUnit) : (s.setPort p v).pendingNotices = s.pendingNotices := rfl
@[simp] theorem setPort_pause (p : Port) (v : PortUnit) : (s.setPort p v).pause = s.pause := rfl
@[simp] theorem setPort_alert (p : Port) (v : PortUnit) : (s.setPort p v).alert = s.alert := rfl
@[simp] theorem setPort_pending (p : Port) (v : PortUnit) : (s.setPort p v).pending = s.pending := rfl
@[simp] theorem setPort_config (p : Port) (v : PortUnit) : (s.setPort p v).config = s.config := rfl
@[simp] theorem setPort_activeBank (p : Port) (v : PortUnit) : (s.setPort p v).activeBank = s.activeBank := rfl
@[simp] theorem setPort_shadowBank (p : Port) (v : PortUnit) : (s.setPort p v).shadowBank = s.shadowBank := rfl
@[simp] theorem setPort_summaryByte (p : Port) (v : PortUnit) : (s.setPort p v).summaryByte = s.summaryByte := rfl

/-! ## setReplay -/

@[simp] theorem setReplay_now (p : Port) (v : Option ReplayRecord) : (s.setReplay p v).now = s.now := rfl
@[simp] theorem setReplay_choices (p : Port) (v : Option ReplayRecord) : (s.setReplay p v).choices = s.choices := rfl
@[simp] theorem setReplay_inReset (p : Port) (v : Option ReplayRecord) : (s.setReplay p v).inReset = s.inReset := rfl
@[simp] theorem setReplay_rx (p : Port) (v : Option ReplayRecord) : (s.setReplay p v).rx = s.rx := rfl
@[simp] theorem setReplay_tx (p : Port) (v : Option ReplayRecord) : (s.setReplay p v).tx = s.tx := rfl
@[simp] theorem setReplay_ports (p : Port) (v : Option ReplayRecord) : (s.setReplay p v).ports = s.ports := rfl
@[simp] theorem setReplay_targets (p : Port) (v : Option ReplayRecord) : (s.setReplay p v).targets = s.targets := rfl
@[simp] theorem setReplay_parks (p : Port) (v : Option ReplayRecord) : (s.setReplay p v).parks = s.parks := rfl
@[simp] theorem setReplay_fades (p : Port) (v : Option ReplayRecord) : (s.setReplay p v).fades = s.fades := rfl
@[simp] theorem setReplay_tickAt (p : Port) (v : Option ReplayRecord) : (s.setReplay p v).tickAt = s.tickAt := rfl
@[simp] theorem setReplay_scenes (p : Port) (v : Option ReplayRecord) : (s.setReplay p v).scenes = s.scenes := rfl
@[simp] theorem setReplay_refreshAt (p : Port) (v : Option ReplayRecord) : (s.setReplay p v).refreshAt = s.refreshAt := rfl
@[simp] theorem setReplay_output (p : Port) (v : Option ReplayRecord) : (s.setReplay p v).output = s.output := rfl
@[simp] theorem setReplay_nextSequence (p : Port) (v : Option ReplayRecord) : (s.setReplay p v).nextSequence = s.nextSequence := rfl
@[simp] theorem setReplay_missed (p : Port) (v : Option ReplayRecord) : (s.setReplay p v).missed = s.missed := rfl
@[simp] theorem setReplay_forward (p : Port) (v : Option ReplayRecord) : (s.setReplay p v).forward = s.forward := rfl
@[simp] theorem setReplay_relay (p : Port) (v : Option ReplayRecord) : (s.setReplay p v).relay = s.relay := rfl
@[simp] theorem setReplay_node (p : Port) (v : Option ReplayRecord) : (s.setReplay p v).node = s.node := rfl
@[simp] theorem setReplay_queue (p : Port) (v : Option ReplayRecord) : (s.setReplay p v).queue = s.queue := rfl
@[simp] theorem setReplay_replay (p : Port) (v : Option ReplayRecord) : (s.setReplay p v).replay = s.replay.set p v := rfl
@[simp] theorem setReplay_preference (p : Port) (v : Option ReplayRecord) : (s.setReplay p v).preference = s.preference := rfl
@[simp] theorem setReplay_banks (p : Port) (v : Option ReplayRecord) : (s.setReplay p v).banks = s.banks := rfl
@[simp] theorem setReplay_active (p : Port) (v : Option ReplayRecord) : (s.setReplay p v).active = s.active := rfl
@[simp] theorem setReplay_checksum (p : Port) (v : Option ReplayRecord) : (s.setReplay p v).checksum = s.checksum := rfl
@[simp] theorem setReplay_session (p : Port) (v : Option ReplayRecord) : (s.setReplay p v).session = s.session := rfl
@[simp] theorem setReplay_pointer (p : Port) (v : Option ReplayRecord) : (s.setReplay p v).pointer = s.pointer := rfl
@[simp] theorem setReplay_outcome (p : Port) (v : Option ReplayRecord) : (s.setReplay p v).outcome = s.outcome := rfl
@[simp] theorem setReplay_latched (p : Port) (v : Option ReplayRecord) : (s.setReplay p v).latched = s.latched := rfl
@[simp] theorem setReplay_pendingNotices (p : Port) (v : Option ReplayRecord) : (s.setReplay p v).pendingNotices = s.pendingNotices := rfl
@[simp] theorem setReplay_pause (p : Port) (v : Option ReplayRecord) : (s.setReplay p v).pause = s.pause := rfl
@[simp] theorem setReplay_alert (p : Port) (v : Option ReplayRecord) : (s.setReplay p v).alert = s.alert := rfl
@[simp] theorem setReplay_pending (p : Port) (v : Option ReplayRecord) : (s.setReplay p v).pending = s.pending := rfl
@[simp] theorem setReplay_config (p : Port) (v : Option ReplayRecord) : (s.setReplay p v).config = s.config := rfl
@[simp] theorem setReplay_activeBank (p : Port) (v : Option ReplayRecord) : (s.setReplay p v).activeBank = s.activeBank := rfl
@[simp] theorem setReplay_shadowBank (p : Port) (v : Option ReplayRecord) : (s.setReplay p v).shadowBank = s.shadowBank := rfl
@[simp] theorem setReplay_summaryByte (p : Port) (v : Option ReplayRecord) : (s.setReplay p v).summaryByte = s.summaryByte := rfl

/-! ## reach -/

@[simp] theorem reach_now (n : Nat) : (s.reach n).now = max s.now n := rfl
@[simp] theorem reach_choices (n : Nat) : (s.reach n).choices = s.choices := rfl
@[simp] theorem reach_inReset (n : Nat) : (s.reach n).inReset = s.inReset := rfl
@[simp] theorem reach_rx (n : Nat) : (s.reach n).rx = s.rx := rfl
@[simp] theorem reach_tx (n : Nat) : (s.reach n).tx = s.tx := rfl
@[simp] theorem reach_ports (n : Nat) : (s.reach n).ports = s.ports := rfl
@[simp] theorem reach_targets (n : Nat) : (s.reach n).targets = s.targets := rfl
@[simp] theorem reach_parks (n : Nat) : (s.reach n).parks = s.parks := rfl
@[simp] theorem reach_fades (n : Nat) : (s.reach n).fades = s.fades := rfl
@[simp] theorem reach_tickAt (n : Nat) : (s.reach n).tickAt = s.tickAt := rfl
@[simp] theorem reach_scenes (n : Nat) : (s.reach n).scenes = s.scenes := rfl
@[simp] theorem reach_refreshAt (n : Nat) : (s.reach n).refreshAt = s.refreshAt := rfl
@[simp] theorem reach_output (n : Nat) : (s.reach n).output = s.output := rfl
@[simp] theorem reach_nextSequence (n : Nat) : (s.reach n).nextSequence = s.nextSequence := rfl
@[simp] theorem reach_missed (n : Nat) : (s.reach n).missed = s.missed := rfl
@[simp] theorem reach_forward (n : Nat) : (s.reach n).forward = s.forward := rfl
@[simp] theorem reach_relay (n : Nat) : (s.reach n).relay = s.relay := rfl
@[simp] theorem reach_node (n : Nat) : (s.reach n).node = s.node := rfl
@[simp] theorem reach_queue (n : Nat) : (s.reach n).queue = s.queue := rfl
@[simp] theorem reach_replay (n : Nat) : (s.reach n).replay = s.replay := rfl
@[simp] theorem reach_preference (n : Nat) : (s.reach n).preference = s.preference := rfl
@[simp] theorem reach_banks (n : Nat) : (s.reach n).banks = s.banks := rfl
@[simp] theorem reach_active (n : Nat) : (s.reach n).active = s.active := rfl
@[simp] theorem reach_checksum (n : Nat) : (s.reach n).checksum = s.checksum := rfl
@[simp] theorem reach_session (n : Nat) : (s.reach n).session = s.session := rfl
@[simp] theorem reach_pointer (n : Nat) : (s.reach n).pointer = s.pointer := rfl
@[simp] theorem reach_outcome (n : Nat) : (s.reach n).outcome = s.outcome := rfl
@[simp] theorem reach_latched (n : Nat) : (s.reach n).latched = s.latched := rfl
@[simp] theorem reach_pendingNotices (n : Nat) : (s.reach n).pendingNotices = s.pendingNotices := rfl
@[simp] theorem reach_pause (n : Nat) : (s.reach n).pause = s.pause := rfl
@[simp] theorem reach_alert (n : Nat) : (s.reach n).alert = s.alert := rfl
@[simp] theorem reach_pending (n : Nat) : (s.reach n).pending = s.pending := rfl
@[simp] theorem reach_config (n : Nat) : (s.reach n).config = s.config := rfl
@[simp] theorem reach_activeBank (n : Nat) : (s.reach n).activeBank = s.activeBank := rfl
@[simp] theorem reach_shadowBank (n : Nat) : (s.reach n).shadowBank = s.shadowBank := rfl
@[simp] theorem reach_summaryByte (n : Nat) : (s.reach n).summaryByte = s.summaryByte := rfl

/-! ## evalAlert -/

@[simp] theorem evalAlert_now : s.evalAlert.now = s.now := rfl
@[simp] theorem evalAlert_choices : s.evalAlert.choices = s.choices := rfl
@[simp] theorem evalAlert_inReset : s.evalAlert.inReset = s.inReset := rfl
@[simp] theorem evalAlert_rx : s.evalAlert.rx = s.rx := rfl
@[simp] theorem evalAlert_tx : s.evalAlert.tx = s.tx := rfl
@[simp] theorem evalAlert_ports : s.evalAlert.ports = s.ports := rfl
@[simp] theorem evalAlert_targets : s.evalAlert.targets = s.targets := rfl
@[simp] theorem evalAlert_parks : s.evalAlert.parks = s.parks := rfl
@[simp] theorem evalAlert_fades : s.evalAlert.fades = s.fades := rfl
@[simp] theorem evalAlert_tickAt : s.evalAlert.tickAt = s.tickAt := rfl
@[simp] theorem evalAlert_scenes : s.evalAlert.scenes = s.scenes := rfl
@[simp] theorem evalAlert_refreshAt : s.evalAlert.refreshAt = s.refreshAt := rfl
@[simp] theorem evalAlert_output : s.evalAlert.output = s.output := rfl
@[simp] theorem evalAlert_nextSequence : s.evalAlert.nextSequence = s.nextSequence := rfl
@[simp] theorem evalAlert_missed : s.evalAlert.missed = s.missed := rfl
@[simp] theorem evalAlert_forward : s.evalAlert.forward = s.forward := rfl
@[simp] theorem evalAlert_relay : s.evalAlert.relay = s.relay := rfl
@[simp] theorem evalAlert_node : s.evalAlert.node = s.node := rfl
@[simp] theorem evalAlert_queue : s.evalAlert.queue = s.queue := rfl
@[simp] theorem evalAlert_replay : s.evalAlert.replay = s.replay := rfl
@[simp] theorem evalAlert_preference : s.evalAlert.preference = s.preference := rfl
@[simp] theorem evalAlert_banks : s.evalAlert.banks = s.banks := rfl
@[simp] theorem evalAlert_active : s.evalAlert.active = s.active := rfl
@[simp] theorem evalAlert_checksum : s.evalAlert.checksum = s.checksum := rfl
@[simp] theorem evalAlert_session : s.evalAlert.session = s.session := rfl
@[simp] theorem evalAlert_pointer : s.evalAlert.pointer = s.pointer := rfl
@[simp] theorem evalAlert_outcome : s.evalAlert.outcome = s.outcome := rfl
@[simp] theorem evalAlert_latched : s.evalAlert.latched = s.latched := rfl
@[simp] theorem evalAlert_pendingNotices : s.evalAlert.pendingNotices = s.pendingNotices := rfl
@[simp] theorem evalAlert_pause : s.evalAlert.pause = s.pause := rfl
@[simp] theorem evalAlert_alert : s.evalAlert.alert = (s.latched &&& s.config.alertMask != 0) := rfl
@[simp] theorem evalAlert_pending : s.evalAlert.pending = s.pending := rfl
@[simp] theorem evalAlert_config : s.evalAlert.config = s.config := rfl
@[simp] theorem evalAlert_activeBank : s.evalAlert.activeBank = s.activeBank := rfl
@[simp] theorem evalAlert_shadowBank : s.evalAlert.shadowBank = s.shadowBank := rfl
@[simp] theorem evalAlert_summaryByte : s.evalAlert.summaryByte = s.summaryByte := rfl

/-! ## One entry among several -/

theorem PerRx.get_set {α : Type} (x : PerRx α) (r r' : Receiver) (v : α) :
    (x.set r v).get r' = if r' = r then v else x.get r' := by
  cases r <;> cases r' <;> rfl

theorem PerTx.get_set {α : Type} (x : PerTx α) (t t' : Transmitter) (v : α) :
    (x.set t v).get t' = if t' = t then v else x.get t' := by
  cases t <;> cases t' <;> rfl

theorem PerPort.get_set {α : Type} (x : PerPort α) (p p' : Port) (v : α) :
    (x.set p v).get p' = if p' = p then v else x.get p' := by
  cases p <;> cases p' <;> rfl

theorem Banks.get_set (x : Banks) (i j : BankId) (v : Bank) :
    (x.set i v).get j = if j = i then v else x.get j := by
  cases i <;> cases j <;> rfl

@[simp] theorem PerRx.get_set_self {α : Type} (x : PerRx α) (r : Receiver) (v : α) : (x.set r v).get r = v := by
  cases r <;> rfl

@[simp] theorem PerTx.get_set_self {α : Type} (x : PerTx α) (t : Transmitter) (v : α) : (x.set t v).get t = v := by
  cases t <;> rfl

@[simp] theorem PerPort.get_set_self {α : Type} (x : PerPort α) (p : Port) (v : α) : (x.set p v).get p = v := by
  cases p <;> rfl

@[simp] theorem Banks.get_set_self (x : Banks) (i : BankId) (v : Bank) : (x.set i v).get i = v := by
  cases i <;> rfl

@[simp] theorem PerRx.set_set {α : Type} (x : PerRx α) (r : Receiver) (v w : α) : (x.set r v).set r w = x.set r w := by
  cases r <;> rfl

@[simp] theorem Banks.get_set_other (x : Banks) (i : BankId) (v : Bank) : (x.set i.other v).get i = x.get i := by
  cases i <;> rfl

@[simp] theorem BankId.other_other (i : BankId) : i.other.other = i := by cases i <;> rfl

end Sys2Proof.Machine
end

