-- ==== Sys2Proof/Laws/Table.lean ====
section
/-! SUPPORT. What the operations on fixed tables read back. -/

namespace Sys2Proof.Machine.Table

theorem getElem_mapFrom {α β : Type} (n : Nat) (f : Fin n → α → β) (i : Nat) (l : List α) (h : i + l.length = n)
    (j : Nat) (hj : j < l.length) :
    (mapFrom n f i l h)[j]'(by rw [length_mapFrom]; exact hj) = f ⟨i + j, by omega⟩ l[j] := by
  induction l generalizing i j with
  | nil => simp at hj
  | cons a as ih =>
    cases j with
    | zero => rfl
    | succ j =>
      have := ih (i + 1) (by simp only [List.length_cons] at h; omega) j (by simpa using hj)
      simp only [mapFrom, List.getElem_cons_succ, this]
      congr 2; omega

/-- An entry of a mapped table is the function of its number and the old entry. -/
@[simp] theorem getElem_mapFin {α β : Type} {n : Nat} (f : Fin n → α → β) (v : Vector α n) (i : Nat) (hi : i < n) :
    (mapFin f v)[i] = f ⟨i, hi⟩ v[i] := by
  have := getElem_mapFrom n f 0 v.toList (by simp) i (by simpa using hi)
  simpa [mapFin] using this

/-- A table mapped by the identity is itself. -/
theorem mapFin_id {α : Type} {n : Nat} (v : Vector α n) : mapFin (fun _ a => a) v = v := by
  ext i hi; simp

/-- Writing no entries changes nothing. -/
@[simp] theorem writeCyclic_nil {α : Type} {n : Nat} (start : Nat) (v : Vector α n) : writeCyclic start [] v = v := rfl

/-- Some pair of two tables satisfies `p` exactly when the entries of one number do. -/
theorem anyPair_eq_true {α β : Type} {n : Nat} (p : α → β → Bool) (u : Vector α n) (v : Vector β n) :
    anyPair p u v = true ↔ ∃ i : Fin n, p u[i] v[i] = true := by
  unfold anyPair
  rw [List.any_eq_true]
  constructor
  · rintro ⟨x, hx, hp⟩
    obtain ⟨i, hi, rfl⟩ := List.mem_iff_getElem.mp hx
    simp only [List.length_zip, Vector.length_toList, Nat.min_self] at hi
    exact ⟨⟨i, hi⟩, by simpa using hp⟩
  · rintro ⟨i, hp⟩
    refine ⟨(u[i], v[i]), ?_, hp⟩
    rw [List.mem_iff_getElem]
    exact ⟨i, by simp, by simp⟩

end Sys2Proof.Machine.Table
end

