-- ==== Sys2Proof/Laws/Ops.lean ====
section
/-! SUPPORT. What the shared operations can do: for each, what it leaves alone (`Noticed`, `Linked`) and what it does to
the rest. -/

namespace Sys2Proof.Machine

/-! ## Condition sets -/

theorem Condition.number_lt (k : Condition) : k.number < 16 := by cases k <;> decide

theorem Condition.number_injective {j k : Condition} (h : j.number = k.number) : j = k := by
  cases j <;> cases k <;> first | rfl | (exact absurd h (by decide))

theorem Condition.mem_all (k : Condition) : k ∈ Condition.all := by cases k <;> decide

theorem Condition.exists_number (i : Nat) (h : i < 16) : ∃ k : Condition, k.number = i := by
  have : ∀ j : Fin 16, ∃ k ∈ Condition.all, k.number = j.val := by decide
  obtain ⟨k, -, hk⟩ := this ⟨i, h⟩
  exact ⟨k, hk⟩

@[simp] theorem hasKind_zero (k : Condition) : hasKind 0 k = false := by simp [hasKind]

@[simp] theorem hasKind_zeroLit (k : Condition) : hasKind 0#16 k = false := hasKind_zero k

theorem hasKind_addKind (set : KindSet) (k j : Condition) : hasKind (addKind set k) j = (hasKind set j || j = k) := by
  cases k <;> cases j <;> simp [hasKind, addKind, Condition.number]

theorem hasKind_removeKinds (set kinds : KindSet) (j : Condition) :
    hasKind (removeKinds set kinds) j = (hasKind set j && !hasKind kinds j) := by
  have := j.number_lt
  simp [hasKind, removeKinds, this]

@[simp] theorem addKind_of_hasKind {set : KindSet} {k : Condition} (h : hasKind set k = true) : addKind set k = set := by
  have := k.number_lt
  apply BitVec.eq_of_getLsbD_eq
  intro i hi
  obtain ⟨j, rfl⟩ := Condition.exists_number i hi
  have := hasKind_addKind set k j
  simp only [hasKind] at this h
  rw [this]
  by_cases hj : j = k
  · subst hj; simp [h]
  · simp [hj]

/-- Two sets with the same kinds are equal. -/
theorem kindSet_ext {x y : KindSet} (h : ∀ k, hasKind x k = hasKind y k) : x = y := by
  apply BitVec.eq_of_getLsbD_eq
  intro i hi
  obtain ⟨k, rfl⟩ := Condition.exists_number i hi
  exact h k

/-- Two sets share a kind exactly when their conjunction is not empty. -/
theorem and_ne_zero_iff (x y : KindSet) : (x &&& y != 0) = true ↔ ∃ k, hasKind x k = true ∧ hasKind y k = true := by
  rw [bne_iff_ne, ne_eq, ← not_forall_not, not_iff_not]
  constructor
  · intro h k hk
    have : hasKind (x &&& y) k = true := by simpa [hasKind] using hk
    rw [h, hasKind_zero] at this; cases this
  · intro h
    apply kindSet_ext
    intro k
    have := h k
    simp [hasKind] at *
    by_cases hx : x.getLsbD k.number = true <;> simp_all

/-! ## What an operation leaves alone -/

/-- The states agree on everything but the conditions, the reply queue, A-return-tx and the relay FIFO it serves. -/
def Noticed (s t : State) : Prop :=
  t = { s with
    tx := { s.tx with a := t.tx.a }
    relay := t.relay
    queue := t.queue
    preference := t.preference
    latched := t.latched
    pendingNotices := t.pendingNotices
    alert := t.alert }

theorem Noticed.refl (s : State) : Noticed s s := rfl

theorem Noticed.trans {s t u : State} (h : Noticed s t) (k : Noticed t u) : Noticed s u := by
  unfold Noticed at *; rw [k, h]

theorem Noticed.now {s t : State} (h : Noticed s t) : t.now = s.now := by rw [h]
theorem Noticed.choices {s t : State} (h : Noticed s t) : t.choices = s.choices := by rw [h]
theorem Noticed.inReset {s t : State} (h : Noticed s t) : t.inReset = s.inReset := by rw [h]
theorem Noticed.rx {s t : State} (h : Noticed s t) : t.rx = s.rx := by rw [h]
theorem Noticed.ports {s t : State} (h : Noticed s t) : t.ports = s.ports := by rw [h]
theorem Noticed.targets {s t : State} (h : Noticed s t) : t.targets = s.targets := by rw [h]
theorem Noticed.parks {s t : State} (h : Noticed s t) : t.parks = s.parks := by rw [h]
theorem Noticed.fades {s t : State} (h : Noticed s t) : t.fades = s.fades := by rw [h]
theorem Noticed.tickAt {s t : State} (h : Noticed s t) : t.tickAt = s.tickAt := by rw [h]
theorem Noticed.scenes {s t : State} (h : Noticed s t) : t.scenes = s.scenes := by rw [h]
theorem Noticed.refreshAt {s t : State} (h : Noticed s t) : t.refreshAt = s.refreshAt := by rw [h]
theorem Noticed.output {s t : State} (h : Noticed s t) : t.output = s.output := by rw [h]
theorem Noticed.nextSequence {s t : State} (h : Noticed s t) : t.nextSequence = s.nextSequence := by rw [h]
theorem Noticed.missed {s t : State} (h : Noticed s t) : t.missed = s.missed := by rw [h]
theorem Noticed.forward {s t : State} (h : Noticed s t) : t.forward = s.forward := by rw [h]
theorem Noticed.node {s t : State} (h : Noticed s t) : t.node = s.node := by rw [h]
theorem Noticed.replay {s t : State} (h : Noticed s t) : t.replay = s.replay := by rw [h]
theorem Noticed.banks {s t : State} (h : Noticed s t) : t.banks = s.banks := by rw [h]
theorem Noticed.active {s t : State} (h : Noticed s t) : t.active = s.active := by rw [h]
theorem Noticed.checksum {s t : State} (h : Noticed s t) : t.checksum = s.checksum := by rw [h]
theorem Noticed.session {s t : State} (h : Noticed s t) : t.session = s.session := by rw [h]
theorem Noticed.pointer {s t : State} (h : Noticed s t) : t.pointer = s.pointer := by rw [h]
theorem Noticed.outcome {s t : State} (h : Noticed s t) : t.outcome = s.outcome := by rw [h]
theorem Noticed.pause {s t : State} (h : Noticed s t) : t.pause = s.pause := by rw [h]
theorem Noticed.pending {s t : State} (h : Noticed s t) : t.pending = s.pending := by rw [h]
theorem Noticed.config {s t : State} (h : Noticed s t) : t.config = s.config := by rw [h]; rfl
theorem Noticed.activeBank {s t : State} (h : Noticed s t) : t.activeBank = s.activeBank := by rw [h]; rfl
theorem Noticed.shadowBank {s t : State} (h : Noticed s t) : t.shadowBank = s.shadowBank := by rw [h]; rfl

theorem Noticed.txD {s t : State} (h : Noticed s t) : t.tx.d = s.tx.d := by rw [h]
theorem Noticed.txB {s t : State} (h : Noticed s t) : t.tx.b = s.tx.b := by rw [h]

/-- The states agree on everything but the links, the frames and replies that wait for them, and the conditions. -/
def Linked (s t : State) : Prop :=
  t = { s with
    rx := t.rx
    tx := t.tx
    output := t.output
    forward := t.forward
    relay := t.relay
    queue := t.queue
    replay := t.replay
    preference := t.preference
    latched := t.latched
    pendingNotices := t.pendingNotices
    alert := t.alert }

theorem Linked.refl (s : State) : Linked s s := rfl

theorem Linked.trans {s t u : State} (h : Linked s t) (k : Linked t u) : Linked s u := by
  unfold Linked at *; rw [k, h]

theorem Linked.now {s t : State} (h : Linked s t) : t.now = s.now := by rw [h]
theorem Linked.choices {s t : State} (h : Linked s t) : t.choices = s.choices := by rw [h]
theorem Linked.inReset {s t : State} (h : Linked s t) : t.inReset = s.inReset := by rw [h]
theorem Linked.ports {s t : State} (h : Linked s t) : t.ports = s.ports := by rw [h]
theorem Linked.targets {s t : State} (h : Linked s t) : t.targets = s.targets := by rw [h]
theorem Linked.parks {s t : State} (h : Linked s t) : t.parks = s.parks := by rw [h]
theorem Linked.fades {s t : State} (h : Linked s t) : t.fades = s.fades := by rw [h]
theorem Linked.tickAt {s t : State} (h : Linked s t) : t.tickAt = s.tickAt := by rw [h]
theorem Linked.scenes {s t : State} (h : Linked s t) : t.scenes = s.scenes := by rw [h]
theorem Linked.refreshAt {s t : State} (h : Linked s t) : t.refreshAt = s.refreshAt := by rw [h]
theorem Linked.nextSequence {s t : State} (h : Linked s t) : t.nextSequence = s.nextSequence := by rw [h]
theorem Linked.missed {s t : State} (h : Linked s t) : t.missed = s.missed := by rw [h]
theorem Linked.node {s t : State} (h : Linked s t) : t.node = s.node := by rw [h]
theorem Linked.banks {s t : State} (h : Linked s t) : t.banks = s.banks := by rw [h]
theorem Linked.active {s t : State} (h : Linked s t) : t.active = s.active := by rw [h]
theorem Linked.checksum {s t : State} (h : Linked s t) : t.checksum = s.checksum := by rw [h]
theorem Linked.session {s t : State} (h : Linked s t) : t.session = s.session := by rw [h]
theorem Linked.pointer {s t : State} (h : Linked s t) : t.pointer = s.pointer := by rw [h]
theorem Linked.outcome {s t : State} (h : Linked s t) : t.outcome = s.outcome := by rw [h]
theorem Linked.pause {s t : State} (h : Linked s t) : t.pause = s.pause := by rw [h]
theorem Linked.pending {s t : State} (h : Linked s t) : t.pending = s.pending := by rw [h]
theorem Linked.config {s t : State} (h : Linked s t) : t.config = s.config := by rw [h]; rfl
theorem Linked.activeBank {s t : State} (h : Linked s t) : t.activeBank = s.activeBank := by rw [h]; rfl
theorem Linked.shadowBank {s t : State} (h : Linked s t) : t.shadowBank = s.shadowBank := by rw [h]; rfl

theorem Noticed.linked {s t : State} (h : Noticed s t) : Linked s t := by
  unfold Noticed at h; unfold Linked; rw [h]

/-! ## Transmitters -/

/-- D-tx takes the waiting output frame, the head of the forward FIFO, or nothing (R113). -/
theorem serveD_cases (s : State) :
    (∃ f, s.tx.d = .free ∧ s.output = .waiting f ∧ serveD s = startTx .dTx f { s with output := .sending f }) ∨
    (∃ f rest, s.tx.d = .free ∧ (∀ g, s.output ≠ .waiting g) ∧ s.forward = f :: rest ∧
      serveD s = startTx .dTx f { s with forward := rest }) ∨
    ((s.tx.d = .free → (∀ g, s.output ≠ .waiting g) ∧ s.forward = []) ∧ serveD s = s) := by
  unfold serveD
  cases hd : s.tx.d with
  | free =>
    cases ho : s.output with
    | waiting f => exact .inl ⟨f, rfl, rfl, rfl⟩
    | empty => cases hf : s.forward <;> simp
    | sending g => cases hf : s.forward <;> simp
  | sending => simp
  | gap => simp

theorem serveD_linked (s : State) : Linked s (serveD s) := by
  obtain ⟨f, -, -, h⟩ | ⟨f, r, -, -, -, h⟩ | ⟨-, h⟩ := serveD_cases s <;> rw [h] <;> rfl

/-- What D-tx serves changes nothing but D-tx, the output frame and the forward FIFO. -/
theorem serveD_frame (s : State) :
    serveD s = { s with
      tx := { s.tx with d := (serveD s).tx.d }, output := (serveD s).output, forward := (serveD s).forward } := by
  obtain ⟨f, -, -, h⟩ | ⟨f, r, -, -, -, h⟩ | ⟨-, h⟩ := serveD_cases s <;> rw [h] <;> rfl

theorem serveA_noticed (s : State) : Noticed s (serveA s) := by
  unfold serveA; repeat' split
  all_goals rfl

/-- What A-return-tx serves changes nothing but A-return-tx, the two sources it takes from, and the preference (R140). -/
theorem serveA_frame (s : State) :
    serveA s = { s with
      tx := { s.tx with a := (serveA s).tx.a }
      relay := (serveA s).relay
      queue := (serveA s).queue
      preference := (serveA s).preference } := by
  unfold serveA; repeat' split
  all_goals rfl

theorem serveB_frame (s : State) :
    serveB s = { s with tx := { s.tx with b := (serveB s).tx.b }, queue := (serveB s).queue } := by
  unfold serveB; repeat' split
  all_goals rfl

theorem serveB_linked (s : State) : Linked s (serveB s) := by rw [serveB_frame]; rfl

theorem serveReturn_linked (p : Port) (s : State) : Linked s (serveReturn p s) := by
  cases p
  · exact (serveA_noticed s).linked
  · exact serveB_linked s

theorem serve_linked (t : Transmitter) (s : State) : Linked s (serve t s) := by
  cases t
  · exact serveD_linked s
  · exact (serveA_noticed s).linked
  · exact serveB_linked s

/-! ## Reply queue -/

/-- The entry taken is WAITING for the port, none before it is, and only its state changes (R137, R138). -/
theorem takeOldest_some {p : Port} {q : List QueueEntry} {m : Message} {q' : List QueueEntry}
    (h : takeOldest p q = some (m, q')) :
    ∃ l r e, q = l ++ e :: r ∧ e.waitsFor p = true ∧ e.message = m ∧ l.countP (·.waitsFor p) = 0 ∧
      q' = l ++ { e with state := .sending } :: r := by
  induction q generalizing m q' with
  | nil => simp [takeOldest] at h
  | cons e rest ih =>
    unfold takeOldest at h
    split at h
    · rename_i he
      cases h
      exact ⟨[], rest, e, rfl, by simpa [QueueEntry.waitsFor] using he, rfl, rfl, rfl⟩
    · rename_i he
      cases hr : takeOldest p rest with
      | none => simp [hr] at h
      | some r =>
        simp only [hr, Option.map_some, Option.some.injEq, Prod.mk.injEq] at h
        obtain ⟨rfl, rfl⟩ := h
        obtain ⟨l, r', e', h1, h2, h3, h4, h5⟩ := ih hr
        refine ⟨e :: l, r', e', by simp [h1], h2, h3, ?_, by simp [h5]⟩
        rw [List.countP_cons_of_neg (by simpa [QueueEntry.waitsFor] using he), h4]

/-- The oldest waiting entry of a split queue is the one taken (R138). -/
theorem takeOldest_split {p : Port} {l : List QueueEntry} {e : QueueEntry} (r : List QueueEntry)
    (he : e.waitsFor p = true) (hl : l.countP (·.waitsFor p) = 0) :
    takeOldest p (l ++ e :: r) = some (e.message, l ++ { e with state := .sending } :: r) := by
  induction l with
  | nil => unfold takeOldest; simp only [List.nil_append]; rw [if_pos (by simpa [QueueEntry.waitsFor] using he)]
  | cons x l ih =>
    simp only [List.countP_cons] at hl
    have hx : ¬ x.waitsFor p = true := by intro h; simp [h] at hl
    have := ih (by omega)
    simp only [List.cons_append]
    unfold takeOldest
    rw [if_neg (by simpa [QueueEntry.waitsFor] using hx), this]; rfl

theorem takeOldest_none {p : Port} {q : List QueueEntry} : takeOldest p q = none ↔ q.countP (·.waitsFor p) = 0 := by
  induction q with
  | nil => simp [takeOldest]
  | cons e rest ih =>
    unfold takeOldest
    by_cases he : e.destination = p ∧ e.state = .waiting
    · simp [he, QueueEntry.waitsFor]
    · have hw : ¬ e.waitsFor p = true := by simpa [QueueEntry.waitsFor] using he
      rw [if_neg he, Option.map_eq_none_iff, ih, List.countP_cons_of_neg hw]

theorem takeOldest_entries {p : Port} {q : List QueueEntry} {m : Message} {q' : List QueueEntry}
    (h : takeOldest p q = some (m, q')) : entries q' = entries q := by
  obtain ⟨l, r, e, rfl, -, -, -, rfl⟩ := takeOldest_some h
  simp [entries]

theorem entries_append (q r : List QueueEntry) : entries (q ++ r) = entries q ++ entries r := List.map_append

theorem length_entries (q : List QueueEntry) : (entries q).length = q.length := List.length_map _

theorem serveA_entries (s : State) : entries (serveA s).queue = entries s.queue := by
  unfold serveA; repeat' split
  all_goals first | rfl | exact takeOldest_entries (by assumption)

theorem serveB_entries (s : State) : entries (serveB s).queue = entries s.queue := by
  unfold serveB; repeat' split
  all_goals first | rfl | exact takeOldest_entries (by assumption)

theorem serveReturn_entries (p : Port) (s : State) : entries (serveReturn p s).queue = entries s.queue := by
  cases p
  · exact serveA_entries s
  · exact serveB_entries s

theorem joinQueue_linked (m : Message) (p : Port) (s : State) : Linked s (joinQueue m p s) :=
  (show Linked s { s with queue := s.queue ++ [⟨m, p, .waiting⟩] } from rfl).trans (serveReturn_linked _ _)

theorem joinQueue_noticed (m : Message) (s : State) : Noticed s (joinQueue m .a s) :=
  (show Noticed s { s with queue := s.queue ++ [⟨m, .a, .waiting⟩] } from rfl).trans (serveA_noticed _)

/-- An entry that joins is the last of the queue (R136, R137). -/
theorem joinQueue_entries (m : Message) (p : Port) (s : State) :
    entries (joinQueue m p s).queue = entries s.queue ++ [(m, p)] := by
  unfold joinQueue; rw [serveReturn_entries]; simp [entries]

/-- An entry that joins leaves the replay records alone (R132, R137). -/
theorem joinQueue_replay (m : Message) (p : Port) (s : State) : (joinQueue m p s).replay = s.replay := by
  cases p
  · exact (serveA_noticed _).replay
  · have := congrArg State.replay (serveB_frame { s with queue := s.queue ++ [⟨m, .b, .waiting⟩] })
    exact this

/-! ## Latchings and notices -/

theorem queueNotice_noticed (k : Condition) (s : State) : Noticed s (queueNotice k s) := joinQueue_noticed _ s

theorem offerNotice_noticed (k : Condition) (s : State) : Noticed s (offerNotice k s) := by
  unfold offerNotice; repeat' split
  · rfl
  · exact queueNotice_noticed k s
  · rfl

/-- A notice that joins leaves the conditions alone. -/
theorem queueNotice_conditions (k : Condition) (s : State) :
    (queueNotice k s).latched = s.latched ∧ (queueNotice k s).alert = s.alert ∧
      (queueNotice k s).pendingNotices = s.pendingNotices := by
  have h : queueNotice k s = serveA { s with queue := s.queue ++ [⟨.notice s.node k s.summaryByte, .a, .waiting⟩] } := rfl
  rw [h, serveA_frame]
  exact ⟨rfl, rfl, rfl⟩

/-- An offered notice joins the queue, or nothing does (R189). -/
theorem offerNotice_entries (k : Condition) (s : State) :
    entries (offerNotice k s).queue = entries s.queue ∨
    entries (offerNotice k s).queue = entries s.queue ++ [(.notice s.node k s.summaryByte, .a)] := by
  unfold offerNotice; repeat' split
  · exact .inl rfl
  · exact .inr (joinQueue_entries _ _ s)
  · exact .inl rfl

theorem offerNotice_latched (k : Condition) (s : State) :
    (offerNotice k s).latched = s.latched ∧ (offerNotice k s).alert = s.alert := by
  have hA : ∀ s : State, (serveA s).latched = s.latched ∧ (serveA s).alert = s.alert := by
    intro s; unfold serveA; repeat' split
    all_goals exact ⟨rfl, rfl⟩
  unfold offerNotice; repeat' split
  · exact ⟨rfl, rfl⟩
  · exact hA _
  · exact ⟨rfl, rfl⟩

theorem latchFlag_noticed (k : Condition) (s : State) : Noticed s (latchFlag k s).1 := by
  unfold latchFlag; split <;> rfl

/-- A latching puts the kind in the latched set, evaluates ALERT when it was not there, and queues nothing (R183). -/
theorem latchFlag_eq (k : Condition) (s : State) :
    (latchFlag k s).1 = { s with
      latched := addKind s.latched k
      alert := if hasKind s.latched k then s.alert else addKind s.latched k &&& s.config.alertMask != 0 } := by
  unfold latchFlag
  by_cases h : hasKind s.latched k = true
  · simp [h]
  · simp [h]; rfl

theorem latch_eq (k : Condition) (s : State) :
    latch k s = if (latchFlag k s).2 then offerNotice k (latchFlag k s).1 else (latchFlag k s).1 := by
  unfold latch
  rcases h : latchFlag k s with ⟨s', b⟩
  cases b <;> rfl

theorem latch_noticed (k : Condition) (s : State) : Noticed s (latch k s) := by
  rw [latch_eq]; split
  · exact (latchFlag_noticed k s).trans (offerNotice_noticed k _)
  · exact latchFlag_noticed k s

/-- The latched set after a latching (R183). -/
theorem latch_latched (k : Condition) (s : State) : (latch k s).latched = addKind s.latched k := by
  rw [latch_eq]; split
  · rw [(offerNotice_latched k _).1, latchFlag_eq]
  · rw [latchFlag_eq]

/-- A kind already latched changes nothing (R183). -/
theorem latch_of_latched {k : Condition} {s : State} (h : hasKind s.latched k = true) : latch k s = s := by
  unfold latch latchFlag; simp [h]

/-- At most one notice joins the queue at a latching (R183, R189). -/
theorem latch_entries (k : Condition) (s : State) :
    ∃ more, entries (latch k s).queue = entries s.queue ++ more ∧ more.length ≤ 1 ∧
      ∀ e ∈ more, ∃ summary, e = (.notice s.node k summary, .a) := by
  rw [latch_eq]; split
  · obtain h | h := offerNotice_entries k (latchFlag k s).1
    · exact ⟨[], by rw [h, latchFlag_eq]; simp, by simp, by simp⟩
    · exact ⟨_, by rw [h, latchFlag_eq], by simp, by simp⟩
  · exact ⟨[], by rw [latchFlag_eq]; simp, by simp, by simp⟩

theorem serveA_of_not_free {s : State} (h : s.tx.a ≠ .free) : serveA s = s := by
  unfold serveA; split
  · contradiction
  · rfl

/-- With A-return-tx at work, a notice offer reaches the queue and the pending set only (R189). -/
theorem offerNotice_busy (k : Condition) (s : State) (h : s.tx.a ≠ .free) :
    offerNotice k s =
      { s with queue := (offerNotice k s).queue, pendingNotices := (offerNotice k s).pendingNotices } := by
  unfold offerNotice; split
  · rfl
  · split
    · have : queueNotice k s = { s with queue := s.queue ++ [⟨.notice s.node k s.summaryByte, .a, .waiting⟩] } :=
        serveA_of_not_free h
      rw [this]
    · rfl

/-- With A-return-tx at work, a latching reaches the conditions and the queue only (R183, R189). -/
theorem latch_busy (k : Condition) (s : State) (h : s.tx.a ≠ .free) :
    latch k s = { s with
      queue := (latch k s).queue
      latched := (latch k s).latched
      pendingNotices := (latch k s).pendingNotices
      alert := (latch k s).alert } := by
  have h1 : ∀ s' : State, s' = { s with latched := s'.latched, alert := s'.alert } →
      offerNotice k s' = { s with
        queue := (offerNotice k s').queue
        latched := s'.latched
        pendingNotices := (offerNotice k s').pendingNotices
        alert := s'.alert } := by
    intro s' hs'
    have := offerNotice_busy k s' (by rw [hs']; exact h)
    rw [this, hs']
  have h2 : (latchFlag k s).1 = { s with latched := (latchFlag k s).1.latched, alert := (latchFlag k s).1.alert } := by
    rw [latchFlag_eq]
  rw [latch_eq]; split
  · rw [h1 _ h2]
  · rw [latchFlag_eq]

/-! ## Latchings as the claims see them -/

theorem any_map_isNoticeOf (k : Condition) (q : List QueueEntry) :
    q.any (·.isNoticeOf k) = (entries q).any (·.1.isNoticeOf k) := by
  rw [entries, List.any_map]; rfl

/-- ALERT as the claims say it (R187). -/
theorem any_alert (x y : KindSet) :
    (Condition.all.any fun j => hasKind x j && hasKind y j) = (x &&& y != 0) := by
  rw [Bool.eq_iff_iff, and_ne_zero_iff]
  simp [Condition.mem_all]

/-- The summary byte depends on the latched set and the active bank (R186). -/
theorem summaryByte_congr {s t : State} (h1 : t.latched = s.latched) (h2 : t.activeBank = s.activeBank) :
    t.summaryByte = s.summaryByte := by
  unfold State.summaryByte State.config; rw [h1, h2]

/-- The first half of a latching is the claims' flagging (R183). -/
theorem latchFlag_conditions (k : Condition) (s : State) :
    (latchFlag k s).1.conditions = s.conditions.flag s k ∧ (latchFlag k s).2 = s.conditions.owes s k := by
  unfold latchFlag Conditions.flag Conditions.owes
  simp only [any_alert]
  by_cases h : hasKind s.latched k = true
  · simp [State.conditions, h]
  · simp [State.conditions, h, State.evalAlert]; rfl

/-- An offered notice does what the claims say (R189), under the node and the active bank of `s`. -/
theorem offerNotice_conditions (k : Condition) {s t : State} (h1 : t.node = s.node) (h2 : t.activeBank = s.activeBank) :
    (offerNotice k t).conditions = t.conditions.offer s k := by
  unfold offerNotice Conditions.offer
  rw [any_map_isNoticeOf, Bool.or_comm]
  have hq : t.conditions.entries = entries t.queue := rfl
  have hp : t.conditions.pendingNotices = t.pendingNotices := rfl
  rw [hq, hp, length_entries]
  split
  · rfl
  · split
    · have hs : ({ s with latched := t.latched } : State).summaryByte = t.summaryByte :=
        summaryByte_congr rfl h2.symm
      obtain ⟨c1, c2, c3⟩ := queueNotice_conditions k t
      have e : entries (queueNotice k t).queue = entries t.queue ++ [(.notice t.node k t.summaryByte, .a)] :=
        joinQueue_entries _ _ t
      unfold State.conditions
      rw [c1, c2, c3, e, h1, hs]
    · rfl

/-- A latching does what the claims say (R183, R189). -/
theorem latch_conditions (k : Condition) {s t : State} (h1 : t.node = s.node) (h2 : t.activeBank = s.activeBank) :
    (latch k t).conditions = t.conditions.latch s k := by
  have hc : t.config = s.config := by unfold State.config; rw [h2]
  obtain ⟨f1, f2⟩ := latchFlag_conditions k t
  have g1 : t.conditions.flag t k = t.conditions.flag s k := by unfold Conditions.flag; rw [hc]
  have g2 : t.conditions.owes t k = t.conditions.owes s k := by unfold Conditions.owes; rw [hc]
  rw [latch_eq, f2, g2]
  unfold Conditions.latch
  split
  · rw [offerNotice_conditions k (s := s) (by rw [(latchFlag_noticed k t).node, h1])
      (by rw [(latchFlag_noticed k t).activeBank, h2]), f1, g1]
  · rw [f1, g1]

/-- A latching latches its kind and no other, with its notice (R183). -/
theorem latch_latches (k : Condition) (s : State) : Latches [k] s (latch k s) :=
  ⟨fun j => by rw [latch_latched, hasKind_addKind]; simp, latch_conditions k rfl rfl⟩

/-- What the claims' latchings take from a state is its node and its active bank (R183, R186, R189). -/
theorem Conditions.latch_congr {s t : State} (h1 : t.node = s.node) (h2 : t.activeBank = s.activeBank) :
    Conditions.latch t = Conditions.latch s := by
  funext v k
  have hc : t.config = s.config := by unfold State.config; rw [h2]
  have hs : ∀ l, ({ t with latched := l } : State).summaryByte = ({ s with latched := l } : State).summaryByte :=
    fun l => summaryByte_congr rfl h2
  unfold Conditions.latch Conditions.owes Conditions.flag Conditions.offer
  rw [hc]
  simp only [hs]
  rw [h1]

/-- Latchings follow one another. -/
theorem Latches.append {ks js : List Condition} {s t u : State} (h : Latches ks s t) (h' : Latches js t u)
    (h1 : t.node = s.node) (h2 : t.activeBank = s.activeBank) : Latches (ks ++ js) s u := by
  obtain ⟨a, b⟩ := h
  obtain ⟨a', b'⟩ := h'
  refine ⟨fun k => by rw [a', a]; simp [or_assoc], ?_⟩
  rw [b', b, List.foldl_append, Conditions.latch_congr h1 h2]

/-- The ALERT before latchings stands after them, or it does not matter to them (R187). -/
theorem Conditions.foldl_latch_alert (s : State) (ks : List Condition) (v : Conditions) (a : Bool) :
    ks.foldl (Conditions.latch s) { v with alert := a } = { ks.foldl (Conditions.latch s) v with alert := a } ∨
    ks.foldl (Conditions.latch s) { v with alert := a } = ks.foldl (Conditions.latch s) v := by
  induction ks generalizing v with
  | nil => exact .inl rfl
  | cons k ks ih =>
    have h : Conditions.latch s { v with alert := a } k = { v.latch s k with alert := a } ∨
        Conditions.latch s { v with alert := a } k = v.latch s k := by
      by_cases hk : hasKind v.latched k = true
      · left; simp [Conditions.latch, Conditions.owes, Conditions.flag, hk]
      · right
        have hf : Conditions.flag s k { v with alert := a } = v.flag s k := by simp [Conditions.flag, hk]
        unfold Conditions.latch
        rw [hf]; rfl
    simp only [List.foldl_cons]
    rcases h with h | h
    · rw [h]; exact ih _
    · rw [h]; exact .inr rfl

/-- Nothing latches where the conditions and the entries stand. -/
theorem Latches.refl {s t : State} (h : t.conditions = s.conditions) : Latches [] s t :=
  ⟨fun k => by have := congrArg Conditions.latched h; simp only [State.conditions] at this; rw [this]; simp, h⟩

/-- Changes beside the conditions and the entries do not matter to what latches. -/
theorem Latches.congr {ks : List Condition} {s t s' t' : State} (h : Latches ks s t) (h1 : s.node = s'.node)
    (h2 : s.activeBank = s'.activeBank) (h3 : s.conditions = s'.conditions) (h4 : t'.conditions = t.conditions) :
    Latches ks s' t' := by
  have a : Latches ks s' t := (Latches.refl h3).append h h1 h2
  refine ⟨fun k => ?_, h4.trans a.2⟩
  have hl : t'.latched = t.latched := congrArg Conditions.latched h4
  rw [hl]; exact a.1 k

/-! ## What the return lines do -/

theorem serveB_of_not_free {s : State} (h : s.tx.b ≠ .free) : serveB s = s := by
  unfold serveB; split
  · contradiction
  · rfl

/-- Where nothing waited, A-return-tx in FREE takes the entry that joins (R137, R140). -/
theorem joinQueue_taken_a {s : State} (m : Message) (h : s.NothingWaitsForFree) (hf : s.tx.a = .free) :
    joinQueue m .a s = { s with
      queue := s.queue ++ [⟨m, .a, .sending⟩]
      tx := { s.tx with a := .sending m.frame (s.now + frameClocks m.frame) }
      preference := .relay } := by
  obtain ⟨hr, hq⟩ := h.2.1 hf
  have ht := takeOldest_split (p := .a) (e := ⟨m, .a, .waiting⟩) [] rfl hq
  show serveA { s with queue := s.queue ++ [⟨m, .a, .waiting⟩] } = _
  unfold serveA
  simp only [hf, ht, hr]
  rfl

/-- Where nothing waited, B-return-tx in FREE takes the entry that joins (R137, R139). -/
theorem joinQueue_taken_b {s : State} (m : Message) (h : s.NothingWaitsForFree) (hf : s.tx.b = .free) :
    joinQueue m .b s = { s with
      queue := s.queue ++ [⟨m, .b, .sending⟩]
      tx := { s.tx with b := .sending m.frame (s.now + frameClocks m.frame) } } := by
  have hq := h.2.2 hf
  have ht := takeOldest_split (p := .b) (e := ⟨m, .b, .waiting⟩) [] rfl hq
  show serveB { s with queue := s.queue ++ [⟨m, .b, .waiting⟩] } = _
  unfold serveB
  simp only [hf, ht]
  rfl

/-- A transmitter that is not FREE leaves the entry that joins WAITING (R137). -/
theorem joinQueue_waits {s : State} (m : Message) {p : Port} (hf : s.tx.get (returnTx p) ≠ .free) :
    joinQueue m p s = { s with queue := s.queue ++ [⟨m, p, .waiting⟩] } := by
  cases p
  · exact serveA_of_not_free (s := { s with queue := s.queue ++ [⟨m, .a, .waiting⟩] }) hf
  · exact serveB_of_not_free (s := { s with queue := s.queue ++ [⟨m, .b, .waiting⟩] }) hf

/-- An entry that joins goes the way of the return lines (R137). -/
theorem joinQueue_serves (m : Message) (p : Port) (s : State) :
    ReturnsServe s (joinQueue m p s) ∧ (s.NothingWaitsForFree → (joinQueue m p s).NothingWaitsForFree) := by
  by_cases hf : s.tx.get (returnTx p) = .free
  · refine ⟨⟨fun p' hp' => ?_, fun ha => ?_, fun hn => ?_⟩, fun hn => ?_⟩
    · cases p <;> cases p'
      · exact absurd hf hp'
      · exact (joinQueue_noticed m s).txB
      · have := serveB_frame { s with queue := s.queue ++ [⟨m, .b, .waiting⟩] }
        show (serveB _).tx.a = _; rw [this]; rfl
      · exact absurd hf hp'
    · cases p
      · exact absurd hf ha
      · have := serveB_frame { s with queue := s.queue ++ [⟨m, .b, .waiting⟩] }
        show (serveB _).relay = _ ∧ (serveB _).preference = _; rw [this]; exact ⟨rfl, rfl⟩
    · cases p
      · rw [joinQueue_taken_a m hn hf]
        refine ⟨rfl, [⟨m, .a, .sending⟩], rfl, fun p' => ⟨fun h => ?_, fun h l e r hq he hl => ?_⟩⟩
        · cases p'
          · rcases h with h | h
            · exact absurd hf h
            · exact absurd rfl (h ⟨m, .a, .sending⟩ (by simp))
          · exact ⟨rfl, nofun, fun e he hd => by rw [List.mem_singleton] at he; subst he; cases hd⟩
        · cases l with
          | nil =>
            simp only [List.nil_append, List.cons.injEq] at hq
            obtain ⟨rfl, rfl⟩ := hq
            simp only at he; subst he
            exact ⟨rfl, by simp, rfl, fun _ => rfl⟩
          | cons x l => simp at hq
      · rw [joinQueue_taken_b m hn hf]
        refine ⟨rfl, [⟨m, .b, .sending⟩], rfl, fun p' => ⟨fun h => ?_, fun h l e r hq he hl => ?_⟩⟩
        · cases p'
          · exact ⟨rfl, fun _ => rfl, fun e he hd => by rw [List.mem_singleton] at he; subst he; cases hd⟩
          · rcases h with h | h
            · exact absurd hf h
            · exact absurd rfl (h ⟨m, .b, .sending⟩ (by simp))
        · cases l with
          | nil =>
            simp only [List.nil_append, List.cons.injEq] at hq
            obtain ⟨rfl, rfl⟩ := hq
            simp only at he; subst he
            exact ⟨rfl, by simp, rfl, nofun⟩
          | cons x l => simp at hq
    · cases p
      · rw [joinQueue_taken_a m hn hf]
        refine ⟨hn.1, nofun, fun h => ?_⟩
        have := hn.2.2 h
        simpa [QueueEntry.waitsFor] using this
      · rw [joinQueue_taken_b m hn hf]
        refine ⟨hn.1, fun h => ?_, nofun⟩
        have := hn.2.1 h
        simpa [QueueEntry.waitsFor] using this
  · rw [joinQueue_waits m hf]
    refine ⟨⟨fun _ _ => rfl, fun _ => ⟨rfl, rfl⟩, fun _ => ⟨rfl, _, rfl, fun p' => ⟨fun _ => ⟨rfl, fun _ => rfl, ?_⟩, ?_⟩⟩⟩, ?_⟩
    · intro e he _; rw [List.mem_singleton] at he; subst he; rfl
    · intro h l e r hq he hl
      cases l with
      | nil =>
        simp only [List.nil_append, List.cons.injEq] at hq
        obtain ⟨rfl, -⟩ := hq
        simp only at he; subst he; exact absurd h hf
      | cons x l => simp at hq
    · intro hn
      refine ⟨hn.1, fun h => ?_, fun h => ?_⟩
      · cases p
        · exact absurd h hf
        · have := hn.2.1 h; simpa [QueueEntry.waitsFor] using this
      · cases p
        · have := hn.2.2 h; simpa [QueueEntry.waitsFor] using this
        · exact absurd h hf

/-- Where the return lines and what they serve stand, they serve nothing. -/
theorem ReturnsServe.of_same {s t : State} (h1 : t.tx.a = s.tx.a) (h2 : t.tx.b = s.tx.b) (h3 : t.relay = s.relay)
    (h4 : t.queue = s.queue) (h5 : t.preference = s.preference) : ReturnsServe s t := by
  have ht : ∀ p, t.tx.get (returnTx p) = s.tx.get (returnTx p) := by intro p; cases p <;> assumption
  refine ⟨fun p _ => ht p, fun _ => ⟨h3, h5⟩, fun _ => ⟨h3, [], by simp [h4], fun p => ⟨fun _ => ⟨ht p, fun _ => h5, by simp⟩, ?_⟩⟩⟩
  intro _ l e r hq
  simp at hq

/-- Changes beside the return lines do not matter to what they do. -/
theorem ReturnsServe.congr {s t s' t' : State} (h : ReturnsServe s t) (h1 : s'.tx.a = s.tx.a) (h2 : s'.tx.b = s.tx.b)
    (h3 : s'.relay = s.relay) (h4 : s'.queue = s.queue) (h5 : s'.preference = s.preference)
    (hn : s'.NothingWaitsForFree → s.NothingWaitsForFree) (k1 : t'.tx.a = t.tx.a) (k2 : t'.tx.b = t.tx.b)
    (k3 : t'.relay = t.relay) (k4 : t'.queue = t.queue) (k5 : t'.preference = t.preference) (k6 : t'.now = t.now) :
    ReturnsServe s' t' := by
  have hs : ∀ p, s'.tx.get (returnTx p) = s.tx.get (returnTx p) := by intro p; cases p <;> assumption
  have ht : ∀ p, t'.tx.get (returnTx p) = t.tx.get (returnTx p) := by intro p; cases p <;> assumption
  unfold ReturnsServe at *
  simp only [hs, ht, h1, h3, h4, h5, k3, k4, k5, k6]
  exact ⟨h.1, h.2.1, fun n => h.2.2 (hn n)⟩

/-- What the return lines do in two events of one instant they do in both (R137, R140). -/
theorem ReturnsServe.trans {s t u : State} (h : ReturnsServe s t) (k : ReturnsServe t u)
    (hn : s.NothingWaitsForFree → t.NothingWaitsForFree) (ht : u.now = t.now) : ReturnsServe s u := by
  obtain ⟨a1, a2, a3⟩ := h
  obtain ⟨b1, b2, b3⟩ := k
  refine ⟨fun p hp => ?_, fun hp => ?_, fun n => ?_⟩
  · have := a1 p hp
    rw [← this]; exact b1 p (by rw [this]; exact hp)
  · have h1 := a2 hp
    have h2 := b2 (by have := a1 .a hp; simp only [returnTx, PerTx.get] at this; rw [this]; exact hp)
    exact ⟨h2.1.trans h1.1, h2.2.trans h1.2⟩
  · obtain ⟨r1, q1, e1, c1⟩ := a3 n
    obtain ⟨r2, q2, e2, c2⟩ := b3 (hn n)
    refine ⟨r2.trans r1, q1 ++ q2, by rw [e2, e1, List.append_assoc], fun p => ⟨fun hp => ?_, fun hp l e r hq he hl => ?_⟩⟩
    · have h1 := (c1 p).1 (hp.imp id fun h e he => h e (List.mem_append_left _ he))
      have h2 := (c2 p).1 (hp.imp (fun h => by rw [h1.1]; exact h) fun h e he => h e (List.mem_append_right _ he))
      refine ⟨h2.1.trans h1.1, fun ha => (h2.2.1 ha).trans (h1.2.1 ha), fun e he hd => ?_⟩
      rcases List.mem_append.mp he with he | he
      · exact h1.2.2 e he hd
      · exact h2.2.2 e he hd
    · rw [List.append_eq_append_iff] at hq
      rcases hq with ⟨x, hx, hx'⟩ | ⟨x, hx, hx'⟩
      · -- the first for the port is among the later ones
        have h1 := (c1 p).1 (.inr fun d hd => hl d (by rw [hx]; exact List.mem_append_left _ hd))
        have h2 := (c2 p).2 (by rw [h1.1]; exact hp) x e r hx' he
          (fun d hd => hl d (by rw [hx]; exact List.mem_append_right _ hd))
        exact h2
      · cases x with
        | nil =>
          simp only [List.nil_append] at hx'
          simp only [List.append_nil] at hx
          have h1 := (c1 p).1 (.inr fun d hd => hl d (by rw [← hx]; exact hd))
          exact (c2 p).2 (by rw [h1.1]; exact hp) [] e r hx'.symm he (by simp)
        | cons y x =>
          simp only [List.cons_append, List.cons.injEq] at hx'
          obtain ⟨rfl, rfl⟩ := hx'
          obtain ⟨h1, h2, h3, h4⟩ := (c1 p).2 hp l e x hx he hl
          have h5 := (c2 p).1 (.inl (by rw [h3]; exact nofun))
          refine ⟨h1, fun d hd hdp => ?_, by rw [h5.1, h3, ht], fun ha => (h5.2.1 ha).trans (h4 ha)⟩
          rcases List.mem_append.mp hd with hd | hd
          · exact h2 d hd hdp
          · exact h5.2.2 d hd hdp

theorem offerNotice_serves (k : Condition) (s : State) :
    ReturnsServe s (offerNotice k s) ∧ (s.NothingWaitsForFree → (offerNotice k s).NothingWaitsForFree) := by
  unfold offerNotice; repeat' split
  · exact ⟨.of_same rfl rfl rfl rfl rfl, id⟩
  · exact joinQueue_serves _ _ s
  · exact ⟨.of_same rfl rfl rfl rfl rfl, id⟩

/-- A latching's notice goes the way of the return lines (R189). -/
theorem latch_serves (k : Condition) (s : State) :
    ReturnsServe s (latch k s) ∧ (s.NothingWaitsForFree → (latch k s).NothingWaitsForFree) := by
  have hb : ReturnsServe s (latchFlag k s).1 ∧ (s.NothingWaitsForFree → (latchFlag k s).1.NothingWaitsForFree) := by
    rw [latchFlag_eq]; exact ⟨.of_same rfl rfl rfl rfl rfl, id⟩
  rw [latch_eq]; split
  · obtain ⟨a, b⟩ := offerNotice_serves k (latchFlag k s).1
    exact ⟨hb.1.trans a hb.2 (offerNotice_noticed k _).now, fun n => b (hb.2 n)⟩
  · exact hb

theorem Noticed.onlyReceivers {s t : State} (h : Noticed s t) (hr : ReturnsServe s t) :
    OnlyReceiversAndConditions s t := by
  refine ⟨?_, hr⟩
  unfold Noticed at h
  rw [h]

/-- All that a latching changes (R183, R189). -/
theorem latch_only (k : Condition) (s : State) : OnlyReceiversAndConditions s (latch k s) :=
  (latch_noticed k s).onlyReceivers (latch_serves k s).1

/-- All that several latchings change. -/
theorem latchAll_noticed (ks : List Condition) (s : State) : Noticed s (latchAll ks s) := by
  induction ks generalizing s with
  | nil => exact .refl s
  | cons k ks ih => exact (latch_noticed k s).trans (ih _)

/-- Several latchings latch their kinds in order, each with its notice (R183). -/
theorem latchAll_latches (ks : List Condition) (s : State) : Latches ks s (latchAll ks s) := by
  induction ks generalizing s with
  | nil => exact .refl rfl
  | cons k ks ih => exact (latch_latches k s).append (ih _) (latch_noticed k s).node (latch_noticed k s).activeBank

/-- The notices of several latchings go the way of the return lines (R189). -/
theorem latchAll_serves (ks : List Condition) (s : State) :
    ReturnsServe s (latchAll ks s) ∧ (s.NothingWaitsForFree → (latchAll ks s).NothingWaitsForFree) := by
  induction ks generalizing s with
  | nil => exact ⟨.of_same rfl rfl rfl rfl rfl, id⟩
  | cons k ks ih =>
    obtain ⟨a, b⟩ := latch_serves k s
    obtain ⟨c, d⟩ := ih (latch k s)
    exact ⟨a.trans c b (latchAll_noticed ks _).now, fun n => d (b n)⟩

theorem latchFlags_noticed (ks : List Condition) (s : State) : Noticed s (latchFlags ks s).1 := by
  induction ks generalizing s with
  | nil => exact .refl s
  | cons k ks ih => exact (latchFlag_noticed k s).trans (ih _)

theorem latchFlags_queue (ks : List Condition) (s : State) : (latchFlags ks s).1.queue = s.queue := by
  induction ks generalizing s with
  | nil => rfl
  | cons k ks ih => exact (ih _).trans (by rw [latchFlag_eq])

/-- Every kind of the list is latched, and nothing else (R183). -/
theorem latchFlags_hasKind (ks : List Condition) (s : State) (j : Condition) :
    hasKind (latchFlags ks s).1.latched j = (hasKind s.latched j || j ∈ ks) := by
  induction ks generalizing s with
  | nil => simp [latchFlags]
  | cons k ks ih =>
    simp only [latchFlags]
    rw [ih, latchFlag_eq, hasKind_addKind]
    simp [List.mem_cons, Bool.or_assoc]

theorem offerNotices_noticed (ks : List Condition) (s : State) : Noticed s (offerNotices ks s) := by
  induction ks generalizing s with
  | nil => exact .refl s
  | cons k ks ih => exact (offerNotice_noticed k s).trans (ih _)

theorem offerNotices_latched (ks : List Condition) (s : State) :
    (offerNotices ks s).latched = s.latched ∧ (offerNotices ks s).alert = s.alert := by
  induction ks generalizing s with
  | nil => exact ⟨rfl, rfl⟩
  | cons k ks ih =>
    simp only [offerNotices]
    rw [(ih _).1, (ih _).2]
    exact offerNotice_latched k s

/-- The queue after notice offers is the queue before them with notices at its tail (R189). -/
theorem offerNotices_entries (ks : List Condition) (s : State) :
    ∃ more, entries (offerNotices ks s).queue = entries s.queue ++ more ∧ more.length ≤ ks.length ∧
      ∀ e ∈ more, ∃ k ∈ ks, ∃ summary, e = (.notice s.node k summary, .a) := by
  induction ks generalizing s with
  | nil => exact ⟨[], by simp [offerNotices], by simp, by simp⟩
  | cons k ks ih =>
    simp only [offerNotices]
    obtain ⟨more, h1, h2, h3⟩ := ih (offerNotice k s)
    rw [(offerNotice_noticed k s).node] at h3
    obtain h | h := offerNotice_entries k s
    · refine ⟨more, by rw [h1, h], by simp; omega, fun e he => ?_⟩
      obtain ⟨k', hk', x⟩ := h3 e he
      exact ⟨k', by simp [hk'], x⟩
    · refine ⟨_ :: more, by rw [h1, h, List.append_assoc]; rfl, by simpa using h2, fun e he => ?_⟩
      obtain rfl | he := List.mem_cons.mp he
      · exact ⟨k, by simp, _, rfl⟩
      · obtain ⟨k', hk', x⟩ := h3 e he
        exact ⟨k', by simp [hk'], x⟩

theorem drainPending_noticed (s : State) : Noticed s (drainPending s) := by
  unfold drainPending; split
  · exact (show Noticed s { s with pendingNotices := _ } from rfl).trans (queueNotice_noticed _ _)
  · rfl

/-! ## Paths -/

theorem forwardPath_linked (f : Frame) (s : State) : Linked s (forwardPath f s) := by
  unfold forwardPath; repeat' split
  · exact (latch_noticed _ s).linked
  · exact (show Linked s { s with forward := _ } from rfl).trans (serveD_linked _)
  · rfl

theorem relayPath_noticed (f : Frame) (s : State) : Noticed s (relayPath f s) := by
  unfold relayPath; split
  · exact latch_noticed _ s
  · exact (show Noticed s { s with relay := _ } from rfl).trans (serveA_noticed _)

/-! ## Receivers -/

theorem settle_linked (r : Receiver) (s : State) : Linked s (settle r s) := rfl

/-- What a receiver is left as by a good frame (R13). -/
theorem settle_settled (r : Receiver) (s : State) : Settled r s (settle r s) := by
  refine ⟨?_, ?_, ?_, ?_, ?_, ?_⟩ <;> simp [settle, Rx.settled, Rx.measureFrom]
  intro r' hr; rw [PerRx.get_set, if_neg hr]

theorem Settled.of_rx {r : Receiver} {s t u : State} (h : Settled r s t) (hu : u.rx = t.rx) : Settled r s u := by
  unfold Settled at *; rw [hu]; exact h

/-- Only the acquire count of the port can change, and only in ACQUIRING (R23). -/
theorem badFrame_frame (p : Port) (s : State) :
    badFrame p s = { s with ports := s.ports.set p { s.ports.get p with acquired := ((badFrame p s).ports.get p).acquired } } := by
  unfold badFrame
  cases p <;> simp only [PerPort.get, PerPort.set] <;> split <;> rfl

theorem reportBadFrame_rest (r : Receiver) (s : State) :
    reportBadFrame r s = { s with ports := (reportBadFrame r s).ports } := by
  cases r
  · show badFrame .a s = { s with ports := (badFrame .a s).ports }
    rw [badFrame_frame]
  · show badFrame .b s = { s with ports := (badFrame .b s).ports }
    rw [badFrame_frame]
  · rfl

/-- A receive error changes nothing but the links, the conditions and the acquire counts (R11). -/
theorem receiveErrorOp_rest (r : Receiver) (e : ErrorKind) (s : State) :
    Linked { s with ports := (receiveErrorOp r e s).ports } (receiveErrorOp r e s) := by
  unfold receiveErrorOp
  rw [reportBadFrame_rest]
  have h : Linked s (latch .frameError (s.setRx r { (s.rx.get r).settled with lastError := some e })) :=
    (show Linked s (s.setRx r _) from rfl).trans (latch_noticed _ _).linked
  unfold Linked at *
  rw [h]

/-- A receive error at a receiver, on a state that differs from another in the time and in that receiver only: everything
it does (R11, R12, R23). -/
theorem receiveErrorOp_failed (r : Receiver) (e : ErrorKind) (s0 s : State)
    (h0 : s = { s0 with rx := s.rx, now := s.now }) (hr : ∀ r', r' ≠ r → s.rx.get r' = s0.rx.get r') :
    ReceiveFailed r e s0 (receiveErrorOp r e s) ∧ (receiveErrorOp r e s).now = s.now ∧
      ((receiveErrorOp r e s).rx.get r).awaitHigh = (s.rx.get r).awaitHigh ∧
      ((receiveErrorOp r e s).rx.get r).idleSince = (s.rx.get r).idleSince := by
  have hb : ∀ q s, (badFrame q s).rx = s.rx ∧ (badFrame q s).latched = s.latched := by
    intro q s; rw [badFrame_frame]; exact ⟨rfl, rfl⟩
  have hrep : ∀ s, (reportBadFrame r s).rx = s.rx ∧ (reportBadFrame r s).latched = s.latched := by
    intro s; rw [reportBadFrame_rest]; exact ⟨rfl, rfl⟩
  set s1 := s.setRx r { (s.rx.get r).settled with lastError := some e } with hs1
  have hrx : (receiveErrorOp r e s).rx = s.rx.set r { (s.rx.get r).settled with lastError := some e } := by
    unfold receiveErrorOp; rw [(hrep _).1, (latch_noticed _ _).rx, setRx_rx]
  have hports : (latch .frameError s1).ports = s0.ports := by
    rw [(latch_noticed _ _).ports, hs1, setRx_ports, h0]
  have hnow : (receiveErrorOp r e s).now = s.now := (receiveErrorOp_rest r e s).now
  refine ⟨⟨?_, ?_, ?_, ?_, ?_, ?_, ?_⟩, hnow, ?_, ?_⟩
  · rw [hrx]; simp [Rx.settled]
  · rw [hrx]; simp [Rx.settled]
  · rw [hrx]; simp
  · intro r' hr'; rw [hrx, PerRx.get_set, if_neg hr', hr r' hr']
  · refine (latch_latches .frameError s1).congr ?_ ?_ ?_ ?_
    · rw [hs1, h0]; rfl
    · rw [hs1, h0]; rfl
    · rw [hs1, h0]; rfl
    · show (reportBadFrame r (latch .frameError s1)).conditions = _
      rw [reportBadFrame_rest]; rfl
  · intro p
    show ((reportBadFrame r (latch .frameError s1)).ports.get p) = _
    have hbf : ∀ q, (badFrame q (latch .frameError s1)).ports.get p =
        if q = p ∧ (s0.ports.get p).state = .acquiring then { s0.ports.get p with acquired := 0 }
        else s0.ports.get p := by
      intro q
      unfold badFrame; dsimp only
      rw [hports]
      split
      · rename_i hq
        rw [setPort_ports, hports, PerPort.get_set]
        by_cases hqp : p = q
        · subst hqp; simp [hq]
        · rw [if_neg hqp, if_neg (by rintro ⟨h, -⟩; exact hqp h.symm)]
      all_goals
        rename_i hq
        rw [hports]
        by_cases hqp : q = p
        · subst hqp; simp [hq]
        · rw [if_neg (by rintro ⟨h, -⟩; exact hqp h)]
    cases r
    · show (badFrame .a _).ports.get p = _
      rw [hbf .a]; cases p <;> simp [rxOf]
    · show (badFrame .b _).ports.get p = _
      rw [hbf .b]; cases p <;> simp [rxOf]
    · show (latch .frameError s1).ports.get p = _
      rw [hports]; cases p <;> simp [rxOf]
  · have h1 : Noticed s1 (latch .frameError s1) := latch_noticed _ _
    refine ⟨?_, ?_⟩
    · show reportBadFrame r (latch .frameError s1) = _
      unfold receiveErrorOp
      rw [← hs1]
      rw [reportBadFrame_rest, h1, hs1]
      unfold State.setRx
      rw [h0]
    · have ht : receiveErrorOp r e s =
          { latch .frameError s1 with ports := (receiveErrorOp r e s).ports } := reportBadFrame_rest r _
      have hr := (latch_serves .frameError s1).1
      refine hr.congr ?_ ?_ ?_ ?_ ?_ ?_ ?_ ?_ ?_ ?_ ?_ ?_
      any_goals (rw [hs1, h0]; first | rfl | exact id)
      all_goals rw [ht]
  · rw [hrx]; simp [Rx.settled]
  · rw [hrx]; simp [Rx.settled]

/-! ## Resolutions -/

/-- What a resolution writes: target level, profile and source kind, never the owner (R53). -/
theorem resolveTarget_owner (s : State) (c : Fin Config.channels) (t : TargetRecord) :
    (resolveTarget s c t).owner = t.owner := by
  unfold resolveTarget firstStep
  repeat' split
  all_goals rfl

/-- Resolving again changes nothing (R53). -/
theorem resolveTarget_idempotent (s : State) (c : Fin Config.channels) (t : TargetRecord) :
    resolveTarget s c (resolveTarget s c t) = resolveTarget s c t := by
  have h := resolveTarget_owner s c t
  unfold resolveTarget at *
  rw [h]
  unfold firstStep
  repeat' split
  all_goals first | rfl | simp_all

/-- A resolution event, channel by channel (R53). -/
theorem resolveQuiet_target (sel : Fin Config.channels → Bool) (s : State) (c : Fin Config.channels) :
    (resolveQuiet sel s).targets[c] = if sel c then resolveTarget s c s.targets[c] else s.targets[c] := by
  simp [resolveQuiet]

theorem resolve_noticed (sel : Fin Config.channels → Bool) (s : State) :
    Noticed (resolveQuiet sel s) (resolve sel s) := by
  unfold resolve; dsimp only; split
  · exact latch_noticed _ _
  · rfl

theorem resolve_targets (sel : Fin Config.channels → Bool) (s : State) :
    (resolve sel s).targets = (resolveQuiet sel s).targets := (resolve_noticed sel s).targets

/-- FALLBACK latches exactly when a channel enters SCENE (R57). -/
theorem enteredScene_iff (u v : Vector TargetRecord Config.channels) :
    enteredScene u v = true ↔ ∃ c : Fin Config.channels, u[c].kind ≠ .scene ∧ v[c].kind = .scene := by
  unfold enteredScene; rw [Table.anyPair_eq_true]; simp

/-! ## Requests -/

theorem replayMatch_none {h : RequestHeader} {code : Byte} {s : State}
    (hr : ∀ r, s.replay.get h.port = some r → ¬ (h.tag ≠ 0 ∧ r.tag = h.tag ∧ r.command = code)) :
    replayMatch h code s = none := by
  unfold replayMatch
  split
  · rename_i r hs; rw [if_neg (hr r hs)]
  · rfl

theorem answer_linked (h : RequestHeader) (code : Byte) (r : Reply) (s : State) : Linked s (answer h code r s) :=
  (show Linked s (s.setReplay h.port _) from rfl).trans (joinQueue_linked _ _ _)

/-- Carrying out and answering: the links and the conditions change beyond what the command itself does (R134). -/
theorem finishRequest_linked (h : RequestHeader) (code : Byte) (c : Carried) :
    Linked c.state (finishRequest h code c) :=
  ((latchFlags_noticed _ _).linked.trans (answer_linked _ _ _ _)).trans (offerNotices_noticed _ _).linked

/-- The reply, the replay record and the notices of an executed request (R125, R130, R131, R134). -/
theorem finishRequest_answered (h : RequestHeader) (code : Byte) (c : Carried) :
    ∃ more, entries (finishRequest h code c).queue =
        entries c.state.queue ++ (.reply (formReply h code c (latchFlags c.latches c.state).1), h.port) :: more ∧
      more.length ≤ c.latches.length ∧
      (∀ e ∈ more, ∃ k ∈ c.latches, ∃ summary, e = (.notice c.state.node k summary, .a)) ∧
      (finishRequest h code c).replay =
        c.state.replay.set h.port (some ⟨h.tag, code, formReply h code c (latchFlags c.latches c.state).1⟩) := by
  unfold finishRequest
  dsimp only
  have sub : ∀ (ks : List Condition) (s : State), (latchFlags ks s).2.length ≤ ks.length ∧ ∀ k ∈ (latchFlags ks s).2, k ∈ ks := by
    intro ks
    induction ks with
    | nil => intro s; simp [latchFlags]
    | cons k ks ih =>
      intro s
      obtain ⟨h1, h2⟩ := ih (latchFlag k s).1
      simp only [latchFlags]
      split
      · exact ⟨by simpa using h1, by simpa using fun j hj => .inr (h2 j hj)⟩
      · exact ⟨by simp; omega, fun j hj => by simp [h2 j hj]⟩
  obtain ⟨more, h1, h2, h3⟩ := offerNotices_entries (latchFlags c.latches c.state).2
    (answer h code (formReply h code c (latchFlags c.latches c.state).1) (latchFlags c.latches c.state).1)
  refine ⟨more, ?_, h2.trans (sub _ _).1, fun e he => ?_, ?_⟩
  · rw [h1]; unfold answer
    rw [joinQueue_entries]
    simp [latchFlags_queue]
  · obtain ⟨k, hk, x, rfl⟩ := h3 e he
    refine ⟨k, (sub _ _).2 k hk, x, ?_⟩
    rw [(answer_linked _ _ _ _).node, (latchFlags_noticed _ _).node]
  · rw [(offerNotices_noticed _ _).replay]; unfold answer
    rw [joinQueue_replay, setReplay_replay, (latchFlags_noticed _ _).replay]

/-- A request that is executed: the receiver settles and the command is carried out and answered (R128, R130). -/
theorem onRequest_executed {form : BroadcastForm} {h : RequestHeader} {code : Byte} {args : List Byte}
    {carry : State → Carried} {s : State} (he : Executes h code args s) :
    onRequest form h code args carry s = finishRequest h code (carry (settle (rxOf h.port) s)) := by
  obtain ⟨-, hd, hr, hq, hl⟩ := he
  unfold onRequest takeRequest addressed
  have hm : replayMatch h code (settle (rxOf h.port) s) = none := replayMatch_none hr
  rw [if_neg (by omega), if_pos (by simpa [settle] using hd), hm]
  simp only
  rw [if_pos (by simpa [settle, Config.queueCapacity] using hq)]

end Sys2Proof.Machine
end

