-- ==== Sys2Proof/Laws/Frames.lean ====
section
/-! SUPPORT. What no frame changes, however it completes: fades, clocks, the program in force, the output sequence, the
node address, the PAUSE state and the commands that wait; and what each command's meaning is while RESET is released. -/

namespace Sys2Proof.Machine

/-- The states agree on what no completing frame changes. -/
def Steady (s t : State) : Prop :=
  (t.now, t.inReset, t.fades, t.tickAt, t.refreshAt, t.nextSequence, t.node, t.active, t.activeBank, t.checksum,
    t.outcome, t.pause, t.pending) =
    (s.now, s.inReset, s.fades, s.tickAt, s.refreshAt, s.nextSequence, s.node, s.active, s.activeBank, s.checksum,
      s.outcome, s.pause, s.pending)

theorem Steady.refl (s : State) : Steady s s := rfl

theorem Steady.trans {s t u : State} (h : Steady s t) (k : Steady t u) : Steady s u := Eq.trans k h

section

variable {s t : State} (h : Steady s t)

include h

theorem Steady.now : t.now = s.now := by simp only [Steady, Prod.mk.injEq] at h; simp only [h]
theorem Steady.inReset : t.inReset = s.inReset := by simp only [Steady, Prod.mk.injEq] at h; simp only [h]
theorem Steady.fades : t.fades = s.fades := by simp only [Steady, Prod.mk.injEq] at h; simp only [h]
theorem Steady.tickAt : t.tickAt = s.tickAt := by simp only [Steady, Prod.mk.injEq] at h; simp only [h]
theorem Steady.refreshAt : t.refreshAt = s.refreshAt := by simp only [Steady, Prod.mk.injEq] at h; simp only [h]
theorem Steady.nextSequence : t.nextSequence = s.nextSequence := by simp only [Steady, Prod.mk.injEq] at h; simp only [h]
theorem Steady.node : t.node = s.node := by simp only [Steady, Prod.mk.injEq] at h; simp only [h]
theorem Steady.active : t.active = s.active := by simp only [Steady, Prod.mk.injEq] at h; simp only [h]
theorem Steady.activeBank : t.activeBank = s.activeBank := by simp only [Steady, Prod.mk.injEq] at h; simp only [h]
theorem Steady.checksum : t.checksum = s.checksum := by simp only [Steady, Prod.mk.injEq] at h; simp only [h]
theorem Steady.outcome : t.outcome = s.outcome := by simp only [Steady, Prod.mk.injEq] at h; simp only [h]
theorem Steady.pause : t.pause = s.pause := by simp only [Steady, Prod.mk.injEq] at h; simp only [h]
theorem Steady.pending : t.pending = s.pending := by simp only [Steady, Prod.mk.injEq] at h; simp only [h]

end

theorem Steady.config {s t : State} (h : Steady s t) : t.config = s.config := congrArg Bank.config h.activeBank

theorem Linked.steady {s t : State} (h : Linked s t) : Steady s t := by rw [h]; rfl

theorem Noticed.steady {s t : State} (h : Noticed s t) : Steady s t := h.linked.steady

/-! ## Blocks -/

theorem settle_steady (r : Receiver) (s : State) : Steady s (settle r s) := (settle_linked r s).steady

theorem receiveErrorOp_steady (r : Receiver) (e : ErrorKind) (s : State) : Steady s (receiveErrorOp r e s) := by
  have h := receiveErrorOp_rest r e s
  exact (show Steady s { s with ports := (receiveErrorOp r e s).ports } from rfl).trans h.steady

theorem errorAtSample_steady (r : Receiver) (e : DetectedError) (s : State) : Steady s (errorAtSample r e s) :=
  (show Steady s (s.setRx r _) from rfl).trans (receiveErrorOp_steady _ _ _)

theorem resolve_steady (sel : Fin Config.channels → Bool) (s : State) : Steady s (resolve sel s) :=
  (show Steady s (resolveQuiet sel s) from rfl).trans (resolve_noticed sel s).steady

theorem portReport_steady (p : Port) (ch : Fin Config.channels → Bool) (b : Bool) (s : State) :
    Steady s (portReport p ch b s) := resolve_steady _ _

theorem goodFrame_steady (p : Port) (s : State) : Steady s (goodFrame p s) := by
  unfold goodFrame; dsimp only; split
  · exact (show Steady s (s.setPort p _) from rfl).trans (latch_noticed _ _).steady
  · exact rfl

theorem acceptFrame_steady (p : Port) (f : LevelFrame) (s : State) : Steady s (acceptFrame p f s) :=
  ((show Steady s (s.setPort p _) from rfl).trans (goodFrame_steady p _)).trans
    ((show Steady _ (moveOwners p _ _) from rfl).trans (portReport_steady p _ _ _))

theorem onLevelA_steady (f : LevelFrame) (s : State) : Steady s (onLevelA f s) := by
  unfold onLevelA levelAtA
  repeat' split
  · exact errorAtSample_steady _ _ s
  · exact (settle_steady _ s).trans (acceptFrame_steady _ _ _)
  · exact (settle_steady _ s).trans (latch_noticed _ _).steady
  · exact (settle_steady _ s).trans (forwardPath_linked _ _).steady

theorem onLevelB_steady (f : LevelFrame) (s : State) : Steady s (onLevelB f s) := by
  unfold onLevelB levelAtB
  repeat' split
  · exact errorAtSample_steady _ _ s
  · exact (settle_steady _ s).trans (acceptFrame_steady _ _ _)
  · exact settle_steady _ s

/-- The frame of a well-formed LEVEL command passes the LEVEL checks (R10). -/
theorem levelError_none {f : LevelFrame} (h : f.wellFormed = true) : levelError f = none := by
  simp only [LevelFrame.wellFormed, Bool.and_eq_true, decide_eq_true_eq] at h
  unfold levelError
  have h1 : ¬ f.levels.length > Config.channels := by omega
  have h2 : ¬ (f.levels.length = 0 ∨ f.first.toNat + f.levels.length > Config.channels) := by omega
  rw [if_neg h1, if_neg h2]

/-- Arguments long enough for their code make a command (R10, R204). -/
theorem decodeCommand_some {h : RequestHeader} {code : Byte} {args : List Byte} (ha : argsComplete code args = true) :
    ∃ i, decodeCommand h code args = some i := by
  unfold argsComplete at ha
  unfold decodeCommand
  revert ha
  cases Command.ofCode code with
  | none => intro _; exact ⟨_, rfl⟩
  | some c =>
    cases c <;> simp only [Command.fixedBytes] <;> intro h2
    all_goals first
      | exact ⟨_, rfl⟩
      | (match args, h2 with
          | [], h => simp at h
          | [_], h => first | exact ⟨_, rfl⟩ | simp at h
          | [_, _], h => first | exact ⟨_, rfl⟩ | simp at h
          | [_, _, _], h => first | exact ⟨_, rfl⟩ | simp at h
          | [_, _, _, _], h => first | exact ⟨_, rfl⟩ | simp at h
          | [_, _, _, _, _], h => first | exact ⟨_, rfl⟩ | simp at h
          | [_, _, _, _, _, _], h => first | exact ⟨_, rfl⟩ | simp at h
          | _ :: _ :: _ :: _ :: _ :: _ :: _ :: _, _ => exact ⟨_, rfl⟩)

/-- A well-formed REQUEST for another node is decoded as one (R128). -/
theorem decodeFrame_requestNotTaken {node : Byte} {h : RequestHeader} {code : Byte} {args : List Byte}
    (hw : (Instr.requestNotTaken h code args).wellFormed = true) (hn : h.destination ≠ node) :
    decodeFrame node (rxOf h.port) (requestFrame h code args) = .ok (.requestNotTaken h code args) := by
  simp only [Instr.wellFormed, Bool.and_eq_true, requestLengthOk, decide_eq_true_eq] at hw
  obtain ⟨⟨h1, h2⟩, h3⟩ := hw
  obtain ⟨i, hi⟩ := decodeCommand_some (h := h) h2
  obtain ⟨port, dest, tag, res⟩ := h
  have hr : ∀ p, port = p → decodeRequest node p (dest :: tag :: code :: res :: args) =
      some (.requestNotTaken ⟨port, dest, tag, res⟩ code args) := by
    rintro p rfl
    unfold decodeRequest
    simp only [hi]
    rw [if_neg (by simp_all)]
  have hl : ¬ (requestFrame ⟨port, dest, tag, res⟩ code args).payload.length >
      maxPayload (requestFrame ⟨port, dest, tag, res⟩ code args).kind := by
    simp [requestFrame, maxPayload]; omega
  unfold decodeFrame
  rw [if_neg hl]
  cases port <;> simp [rxOf, requestFrame, Frame.levelKind, Frame.requestKind, orFormat, hr]

/-! ## Requests -/

theorem finishRequest_steady (h : RequestHeader) (code : Byte) (c : Carried) :
    Steady c.state (finishRequest h code c) := (finishRequest_linked h code c).steady

theorem handOn_linked (h : RequestHeader) (code : Byte) (args : List Byte) (s : State) :
    Linked s (handOn h code args s) := by
  unfold handOn; split
  · exact forwardPath_linked _ _
  · exact rfl

theorem carryBroadcast_steady {carry : State → Carried} (hc : ∀ s, Steady s (carry s).state) (s : State) :
    Steady s (carryBroadcast carry s) :=
  (hc s).trans (latchAll_noticed _ _).steady

theorem broadcast_steady {carry : State → Carried} (hc : ∀ s, Steady s (carry s).state) (form : BroadcastForm)
    (h : RequestHeader) (code : Byte) (args : List Byte) (s : State) :
    Steady s (broadcast form h code args carry s) := by
  unfold broadcast broadcastActing State.choose
  dsimp only
  repeat' split
  · exact (handOn_linked _ _ _ _).steady
  · exact ((show Steady s { s with choices := s.choices + 1 } from rfl).trans (carryBroadcast_steady hc _)).trans
      (handOn_linked _ _ _ _).steady
  · exact ((show Steady s { s with choices := s.choices + 1 } from rfl).trans (handOn_linked _ _ _ _).steady).trans
      (carryBroadcast_steady hc _)
  · exact (carryBroadcast_steady hc s).trans (handOn_linked _ _ _ _).steady
  · exact (carryBroadcast_steady hc s).trans (handOn_linked _ _ _ _).steady

theorem addressed_steady {carry : State → Carried} (hc : ∀ s, Steady s (carry s).state)
    (h : RequestHeader) (code : Byte) (s : State) : Steady s (addressed h code carry s) := by
  unfold addressed
  repeat' split
  · exact ((show Linked s (s.setReplay h.port _) from rfl).trans (joinQueue_linked _ _ _)).steady
  · exact (latch_noticed _ s).steady
  · exact (hc s).trans (finishRequest_steady _ _ _)
  · exact (latch_noticed _ s).steady

theorem onRequest_steady {carry : State → Carried} (hc : ∀ s, Steady s (carry s).state) (form : BroadcastForm)
    (h : RequestHeader) (code : Byte) (args : List Byte) (s : State) :
    Steady s (onRequest form h code args carry s) := by
  unfold onRequest takeRequest
  repeat' split
  · exact errorAtSample_steady _ _ s
  · exact (settle_steady _ s).trans (addressed_steady hc _ _ _)
  · exact (settle_steady _ s).trans (broadcast_steady hc _ _ _ _ _)
  · exact (settle_steady _ s).trans (handOn_linked _ _ _ _).steady

theorem guardReserved_steady {carry : State → Carried} (hc : ∀ s, Steady s (carry s).state) (h : RequestHeader)
    (s : State) : Steady s (guardReserved h carry s).state := by
  unfold guardReserved; split
  · exact hc s
  · exact rfl

theorem parkRange_steady (first count : BitVec 16) (p : ParkRecord) (s : State) :
    Steady s (parkRange first count p s).state := rfl

theorem carryForce_steady (first count : BitVec 16) (level : Level) (profile : Byte) (s : State) :
    Steady s (carryForce first count level profile s).state := by
  unfold carryForce; repeat' split
  all_goals exact rfl

theorem carryRelease_steady (first count : BitVec 16) (s : State) :
    Steady s (carryRelease first count s).state := by
  unfold carryRelease; split <;> exact rfl

theorem carrySaveScene_steady (scene : Byte) (s : State) : Steady s (carrySaveScene scene s).state := by
  unfold carrySaveScene; split <;> exact rfl

theorem carryAck_steady (kinds : KindSet) (s : State) : Steady s (carryAck kinds s).state := rfl

/-- A warm restart stops no transmitter, empties the queue and the two FIFOs, and keeps the return preference (R17, R121, R140,
R145). -/
theorem warmRestart_links (s : State) :
    (warmRestart s).tx = s.tx ∧ (warmRestart s).queue = [] ∧ (warmRestart s).forward = [] ∧ (warmRestart s).relay = [] ∧
      (warmRestart s).output = s.output ∧ (warmRestart s).preference = s.preference := by
  simp [warmRestart, resolveQuiet, restartManagement, restartConditions, restartSession, restartPaths, restartResolver,
    restartPorts, clearOwners]

theorem warmRestart_steady (s : State) : Steady s (warmRestart s) := by
  have h1 : ∀ s, Steady s (restartResolver (restartPorts s)) := fun _ => rfl
  have h2 : ∀ s, Steady s (restartSession (restartPaths s)) := fun _ => rfl
  have h3 : ∀ s, Steady s (restartManagement (restartConditions s)) := fun _ => rfl
  have h4 : ∀ s, Steady s (resolveQuiet (fun _ => true) s) := fun _ => rfl
  exact (((h1 s).trans (h2 _)).trans (h3 _)).trans (h4 _)

theorem carryOpen_steady (o : SessionOwner) (s : State) : Steady s (carryOpen o s).state := by
  unfold carryOpen; repeat' split
  all_goals exact rfl

theorem writeEntries_steady (t : TableName) (start : Nat) (entries : List (List Byte)) (s : State) :
    Steady s (writeEntries t start entries s) := by
  have hb : ∀ b : Bank, Steady s { s with banks := s.banks.set s.active.other b } := fun b =>
    by unfold Steady State.activeBank; simp
  cases t
  case scenes => exact rfl
  all_goals exact hb _

theorem writeCarried_steady (o : SessionOwner) (t : TableName) (start : Nat) (entries : List (List Byte)) (s : State) :
    Steady s (writeCarried o t start entries s).state :=
  writeEntries_steady t start entries s

theorem carryWrite_steady (o : SessionOwner) (table : Byte) (index : BitVec 16) (count : Byte) (entries : List Byte)
    (s : State) : Steady s (carryWrite o table index count entries s).state := by
  unfold carryWrite; repeat' split
  all_goals first | exact writeCarried_steady _ _ _ _ _ | exact rfl

theorem carryCommit_steady (o : SessionOwner) (expected : Crc32) (s : State) :
    Steady s (carryCommit o expected s).state := by
  unfold carryCommit; split <;> exact rfl

theorem carryAbort_steady (o : SessionOwner) (s : State) : Steady s (carryAbort o s).state := by
  unfold carryAbort; repeat' split
  all_goals exact rfl

/-- The read commands leave the state as it is (R144). -/
theorem carryReadChannels_state (first : BitVec 16) (count : Byte) (s : State) :
    (carryReadChannels first count s).state = s := by
  unfold carryReadChannels; split <;> rfl

theorem carryReadInputs_state (port : Byte) (first : BitVec 16) (count : Byte) (s : State) :
    (carryReadInputs port first count s).state = s := by
  unfold carryReadInputs; repeat' split
  all_goals rfl

theorem carryReadTable_state (bank table : Byte) (index : BitVec 16) (count : Byte) (s : State) :
    (carryReadTable bank table index count s).state = s := by
  unfold carryReadTable readTableAnswer; dsimp only; repeat' split
  all_goals rfl

theorem steady_of_eq {s t : State} (h : t = s) : Steady s t := h ▸ rfl

/-- A completing frame, whatever command it is (R13). -/
theorem runFrameCommand_steady (i : Instr) (s : State) : Steady s (runFrameCommand i s) := by
  cases i <;> simp only [runFrameCommand]
  case levelFrameA f => exact onLevelA_steady f s
  case levelFrameB f => exact onLevelB_steady f s
  case forwardFrame f => exact (settle_steady _ s).trans (forwardPath_linked _ _).steady
  case relayFrame f => exact (settle_steady _ s).trans (relayPath_noticed _ _).steady
  case bFrameDiscarded f => exact settle_steady _ s
  case requestNotTaken h code args => exact (settle_steady _ s).trans (handOn_linked _ _ _ _).steady
  case badCommand h code args => exact onRequest_steady (carry := carryBadCommand) (fun _ => rfl) _ _ _ _ _
  case identify h extra => exact onRequest_steady (guardReserved_steady (carry := carryIdentify) (fun _ => rfl) h) _ _ _ _ _
  case readStatus h extra =>
    exact onRequest_steady (guardReserved_steady (carry := carryReadStatus) (fun _ => rfl) h) _ _ _ _ _
  case readChannels h f c e =>
    exact onRequest_steady (guardReserved_steady (fun s => steady_of_eq (carryReadChannels_state f c s)) h) _ _ _ _ _
  case readInputs h p f c e =>
    exact onRequest_steady (guardReserved_steady (fun s => steady_of_eq (carryReadInputs_state p f c s)) h) _ _ _ _ _
  case readTable h b t i c e =>
    exact onRequest_steady (guardReserved_steady (fun s => steady_of_eq (carryReadTable_state b t i c s)) h) _ _ _ _ _
  case openSession h t e => exact onRequest_steady (guardReserved_steady (carryOpen_steady _) h) _ _ _ _ _
  case writeTable h t tb i c e => exact onRequest_steady (guardReserved_steady (carryWrite_steady _ _ _ _ _) h) _ _ _ _ _
  case commit h t x e => exact onRequest_steady (guardReserved_steady (carryCommit_steady _ _) h) _ _ _ _ _
  case abortSession h t e => exact onRequest_steady (guardReserved_steady (carryAbort_steady _) h) _ _ _ _ _
  case force h f c l p e => exact onRequest_steady (guardReserved_steady (carryForce_steady _ _ _ _) h) _ _ _ _ _
  case release h f c e => exact onRequest_steady (guardReserved_steady (carryRelease_steady _ _) h) _ _ _ _ _
  case saveScene h sc e => exact onRequest_steady (guardReserved_steady (carrySaveScene_steady _) h) _ _ _ _ _
  case ackConditions h k e => exact onRequest_steady (guardReserved_steady (carryAck_steady _) h) _ _ _ _ _
  case restart h e => exact onRequest_steady (guardReserved_steady warmRestart_steady h) _ _ _ _ _
  all_goals exact rfl

theorem completeFrame_steady (r : Receiver) (f : Frame) (s : State) : Steady s (completeFrame r f s) := by
  unfold completeFrame; split
  · exact errorAtSample_steady _ _ s
  · exact runFrameCommand_steady _ s

/-- A good character at the frame logic, whatever it completes (R6, R7). -/
theorem goodCharacterOp_steady (r : Receiver) (b : Byte) (s : State) : Steady s (goodCharacterOp r b s) := by
  unfold goodCharacterOp receiveByte
  dsimp only
  repeat' split
  all_goals first
    | exact rfl
    | exact errorAtSample_steady _ _ s
    | exact completeFrame_steady _ _ s

/-- A bad character at the frame logic (R6, R9). -/
theorem badCharacterOp_steady (r : Receiver) (s : State) : Steady s (badCharacterOp r s) := by
  unfold badCharacterOp
  dsimp only
  repeat' split
  all_goals first
    | exact rfl
    | exact errorAtSample_steady _ _ s

/-! ## The part's own events -/

/-- The states agree on what only a reset, a PAUSE edge or a fade tick changes. -/
def Kept (s t : State) : Prop :=
  (t.inReset, t.fades, t.node, t.pause, t.pending) = (s.inReset, s.fades, s.node, s.pause, s.pending)

theorem Kept.refl (s : State) : Kept s s := rfl

theorem Kept.trans {s t u : State} (h : Kept s t) (k : Kept t u) : Kept s u := Eq.trans k h

section

variable {s t : State} (h : Kept s t)

include h

theorem Kept.inReset : t.inReset = s.inReset := by simp only [Kept, Prod.mk.injEq] at h; simp only [h]
theorem Kept.fades : t.fades = s.fades := by simp only [Kept, Prod.mk.injEq] at h; simp only [h]
theorem Kept.node : t.node = s.node := by simp only [Kept, Prod.mk.injEq] at h; simp only [h]
theorem Kept.pause : t.pause = s.pause := by simp only [Kept, Prod.mk.injEq] at h; simp only [h]
theorem Kept.pending : t.pending = s.pending := by simp only [Kept, Prod.mk.injEq] at h; simp only [h]

end

theorem Steady.kept {s t : State} (h : Steady s t) : Kept s t := by
  simp only [Kept, h.inReset, h.fades, h.node, h.pause, h.pending]

/-- The states agree on what only a reset or a PAUSE edge changes. -/
def Fixed (s t : State) : Prop := (t.inReset, t.node, t.pause, t.pending) = (s.inReset, s.node, s.pause, s.pending)

theorem Fixed.trans {s t u : State} (h : Fixed s t) (k : Fixed t u) : Fixed s u := Eq.trans k h

theorem Kept.fixed {s t : State} (h : Kept s t) : Fixed s t := by
  simp only [Fixed, h.inReset, h.node, h.pause, h.pending]

theorem latch_kept (k : Condition) (s : State) : Kept s (latch k s) := (latch_noticed k s).steady.kept

theorem setPort_kept (p : Port) (u : PortUnit) (s : State) : Kept s (s.setPort p u) := rfl

theorem stateReport_kept (p : Port) (s : State) : Kept s (stateReport p s) := (portReport_steady p _ _ s).kept

theorem lossEvent_kept (p : Port) (n : Nat) (s : State) : Kept s (lossEvent p n s) := by
  unfold lossEvent
  dsimp only
  split
  · exact (setPort_kept _ _ _).trans (stateReport_kept _ _)
  · split
    · exact (((setPort_kept _ _ _).trans (latch_kept _ _)).trans (latch_kept _ _)).trans (stateReport_kept _ _)
    · exact ((setPort_kept _ _ _).trans (latch_kept _ _)).trans (stateReport_kept _ _)
  all_goals exact setPort_kept _ _ _

theorem lossExpiryOp_kept (p : Port) (s : State) : Kept s (lossExpiryOp p s) := by
  unfold lossExpiryOp; split
  · exact .refl s
  · exact (show Kept s (s.reach _) from rfl).trans (lossEvent_kept _ _ _)

theorem holdEvent_kept (p : Port) (s : State) : Kept s (holdEvent p s) := by
  unfold holdEvent
  dsimp only
  split
  · exact ((setPort_kept _ _ _).trans (latch_kept _ _)).trans (stateReport_kept _ _)
  all_goals exact setPort_kept _ _ _

theorem holdExpiryOp_kept (p : Port) (s : State) : Kept s (holdExpiryOp p s) := by
  unfold holdExpiryOp; split
  · exact .refl s
  · exact (show Kept s (s.reach _) from rfl).trans (holdEvent_kept _ _)

theorem sessionExpiryOp_kept (s : State) : Kept s (sessionExpiryOp s) := by
  unfold sessionExpiryOp; split
  · exact (show Kept s (startCopy (s.reach _)) from rfl).trans (latch_kept _ _)
  all_goals exact rfl

theorem verificationCompleteOp_kept (s : State) : Kept s (verificationCompleteOp s) := by
  unfold verificationCompleteOp
  dsimp only
  repeat' split
  all_goals first
    | exact rfl
    | exact Kept.trans rfl (latch_kept _ _)

theorem copyCompleteOp_kept (s : State) : Kept s (copyCompleteOp s) := by
  unfold copyCompleteOp; split <;> exact rfl

theorem silenceIfAltered_kept (old : ConfigRecord) (p : Port) (s : State) : Kept s (silenceIfAltered old p s) := by
  unfold silenceIfAltered; split <;> exact rfl

/-- A fade tick that is not due does not fall within a changeover (R61, R87). -/
theorem tickWithin_later {s : State} (h : ∀ m, s.tickAt = some m → s.now < m) : tickWithin s = s := by
  unfold tickWithin; split
  · rfl
  · rename_i t ht; rw [if_pos (h t ht)]

/-- All that a tick within a changeover changes (R61, R71, R87). -/
theorem tickWithin_rest (s : State) :
    tickWithin s = { s with
      choices := (tickWithin s).choices
      tickAt := (tickWithin s).tickAt
      fades := (tickWithin s).fades } := by
  unfold tickWithin State.choose fadeTickOp
  split
  · rfl
  · rename_i t ht
    split
    · rfl
    · have hm : max s.now t = s.now := by omega
      dsimp only
      simp only [ht]
      repeat' split
      all_goals simp [State.reach, advanceAll, hm]

theorem tickWithin_fixed (s : State) : Fixed s (tickWithin s) := by rw [tickWithin_rest]; rfl

theorem changeover_fixed (k : Crc32) (s : State) : Fixed s (changeover k s) := by
  unfold changeover
  dsimp only
  exact ((((((show Fixed s (exchangeBanks k s) from rfl).trans (latch_kept _ _).fixed).trans (tickWithin_fixed _)).trans
    (silenceIfAltered_kept _ _ _).fixed).trans (silenceIfAltered_kept _ _ _).fixed)).trans
    ((show Fixed _ (clearOwners _) from rfl).trans (resolve_steady _ _).kept.fixed)

/-- A changeover changes no fade context unless a tick is due (R61, R87). -/
theorem changeover_fades (k : Crc32) {s : State} (h : ∀ m, s.tickAt = some m → s.now < m) :
    (changeover k s).fades = s.fades := by
  have n := latch_noticed .commitDone (exchangeBanks k s)
  unfold changeover
  dsimp only
  rw [tickWithin_later (by rw [n.tickAt, n.now]; exact h)]
  rw [(resolve_steady _ _).kept.fades]
  show (silenceIfAltered _ _ _).fades = _
  rw [(silenceIfAltered_kept _ _ _).fades, (silenceIfAltered_kept _ _ _).fades, n.fades]
  rfl

theorem takeSnapshot_fixed (s : State) : Fixed s (takeSnapshot s) := by
  have h : Fixed s (serveD { s with output := .waiting s.outputSnapshot, nextSequence := s.nextSequence + 1 }) :=
    Fixed.trans rfl (serveD_linked _).steady.kept.fixed
  unfold takeSnapshot toldOfSnapshot; split
  · exact h.trans (changeover_fixed _ _)
  all_goals exact h

theorem refreshExpiryOp_fixed (s : State) : Fixed s (refreshExpiryOp s) := by
  unfold refreshExpiryOp
  dsimp only
  repeat' split
  all_goals first
    | exact rfl
    | exact ((show Fixed s (s.reach _) from rfl).trans (takeSnapshot_fixed _)).trans rfl

/-- A refresh expiry changes no fade context unless it makes the changeover with a tick due (R61, R87). -/
theorem refreshExpiryOp_fades {s : State} (h : s.output = .empty → ∀ o k, s.session = .armed o k →
    ∀ n m, s.refreshAt = some n → s.tickAt = some m → max s.now n < m) : (refreshExpiryOp s).fades = s.fades := by
  unfold refreshExpiryOp
  split
  · rfl
  · rename_i n hn
    dsimp only
    split
    · rename_i ho
      show (takeSnapshot (s.reach n)).fades = s.fades
      set s1 := serveD { s.reach n with
        output := .waiting (s.reach n).outputSnapshot, nextSequence := (s.reach n).nextSequence + 1 } with hs1
      have ls := (serveD_linked { s.reach n with
        output := .waiting (s.reach n).outputSnapshot, nextSequence := (s.reach n).nextSequence + 1 })
      rw [← hs1] at ls
      unfold takeSnapshot toldOfSnapshot
      rw [← hs1]
      have hses : s1.session = s.session := ls.session
      split
      · rename_i o k hk
        rw [changeover_fades]
        · exact ls.fades
        · intro m hm
          rw [ls.now]
          exact h ho o k (by rw [← hses]; exact hk) n m hn (by rw [← hm]; exact ls.tickAt.symm)
      all_goals exact ls.fades
    all_goals rfl

theorem entryCompleted_kept (p : Port) (s : State) : Kept s (entryCompleted p s) := by
  unfold entryCompleted; split
  · exact Kept.trans rfl (drainPending_noticed _).steady.kept
  · exact rfl

theorem outputCompleted_kept (s : State) : Kept s (outputCompleted s) := by
  unfold outputCompleted; split <;> exact rfl

theorem transmitCompleteOp_kept (x : Transmitter) (s : State) : Kept s (transmitCompleteOp x s) := by
  unfold transmitCompleteOp; split
  · cases x
    · exact Kept.trans rfl (outputCompleted_kept _)
    · exact Kept.trans rfl (entryCompleted_kept _ _)
    · exact Kept.trans rfl (entryCompleted_kept _ _)
  all_goals exact rfl

theorem gapEndOp_kept (x : Transmitter) (s : State) : Kept s (gapEndOp x s) := by
  unfold gapEndOp; split
  · exact Kept.trans rfl (serve_linked _ _).steady.kept
  all_goals exact rfl

/-! ## Idle and characters -/

theorem interFrameIdleOp_kept (r : Receiver) (s : State) : Kept s (interFrameIdleOp r s) := by
  unfold interFrameIdleOp; dsimp only; split <;> exact rfl

theorem truncatedOp_kept (r : Receiver) (s : State) : Kept s (truncatedOp r s) := by
  unfold truncatedOp; dsimp only; split
  · exact (show Kept s ((s.reach _).setRx r _) from rfl).trans (receiveErrorOp_steady _ _ _).kept
  · exact rfl

/-- A character, with the effects of the idle before it and whatever it completes (R3, R6, R7). -/
theorem characterOp_kept (r : Receiver) (w : BitVec 10) (s : State) : Kept s (characterOp r w s) := by
  have ht : ∀ n s, Kept s (truncateBefore r n s) := by
    intro n s; unfold truncateBefore; repeat' split
    all_goals first | exact truncatedOp_kept r s | exact .refl s
  have hh : ∀ n s, Kept s (huntBefore r n s) := by
    intro n s; unfold huntBefore; repeat' split
    all_goals first | exact interFrameIdleOp_kept r s | exact .refl s
  have hr : ∀ n s, Kept s (State.reach s n) := fun _ _ => rfl
  unfold characterOp takeCharacter
  dsimp only
  repeat' split
  · exact .refl s
  · exact .refl s
  · exact ((ht _ s).trans ((hh _ _).trans (hr _ _))).trans (goodCharacterOp_steady _ _ _).kept
  · exact ((ht _ s).trans ((hh _ _).trans (hr _ _))).trans (badCharacterOp_steady _ _).kept

/-! ## Meanings -/

/-- Outside a reset, a command that waits for the release of RESET is its effect. -/
theorem whenRunning_next {f : State → State} {s : State} (h : s.inReset = false) : whenRunning f s = .next (f s) := by
  unfold whenRunning; simp [h]

/-- A command that waits for the release of RESET has its effect or none. -/
theorem whenRunning_cases {f : State → State} {s t : State} (h : whenRunning f s = .next t) :
    t = s ∨ (s.inReset = false ∧ t = f s) := by
  unfold whenRunning at h
  split at h
  · exact .inl (by injection h with h; exact h.symm)
  · rename_i hr
    exact .inr ⟨by simpa using hr, by injection h with h; exact h.symm⟩

/-- No command but the resets, the PAUSE edges, the fade tick and the refresh expiry changes a fade context, the node
address, the PAUSE state or the commands that wait. -/
theorem exec_kept {c : Instr} {s t : State} (h1 : c ≠ .hardReset) (h2 : ∀ x a b d, c ≠ .resetRelease x a b d)
    (h3 : c ≠ .pauseAssert) (h4 : c ≠ .pauseRelease) (h5 : c ≠ .fadeTick)
    (h6 : c ≠ .refreshExpiry) (h : exec c s = .next t) : Kept s t := by
  have w : ∀ f : State → State, Kept s (f s) → whenRunning f s = .next t → Kept s t := by
    intro f hf hh
    rcases whenRunning_cases hh with rfl | ⟨-, rfl⟩
    · exact rfl
    · exact hf
  cases c <;> simp only [exec] at h
  case hardReset => exact absurd rfl h1
  case resetRelease => exact absurd rfl (h2 _ _ _ _)
  case pauseAssert => exact absurd rfl h3
  case pauseRelease => exact absurd rfl h4
  case fadeTick => exact absurd rfl h5
  case refreshExpiry => exact absurd rfl h6
  case interFrameIdle r => exact w _ (interFrameIdleOp_kept r s) h
  case truncated r => exact w _ (truncatedOp_kept r s) h
  case receiveError r e =>
    refine w _ ?_ h; unfold receiveErrorEvent; split
    · exact rfl
    · exact (errorAtSample_steady _ _ _).kept
  case lineReturnHigh r => refine w _ ?_ h; unfold lineReturnHighOp; dsimp only; split <;> exact rfl
  case characterReceived r x => exact w _ (characterOp_kept r x s) h
  case lossExpiry p => exact w _ (lossExpiryOp_kept p s) h
  case holdExpiry p => exact w _ (holdExpiryOp_kept p s) h
  case sessionExpiry => exact w _ (sessionExpiryOp_kept s) h
  case verificationComplete => exact w _ (verificationCompleteOp_kept s) h
  case copyComplete => exact w _ (copyCompleteOp_kept s) h
  case transmitComplete x => exact w _ (transmitCompleteOp_kept x s) h
  case gapEnd x => exact w _ (gapEndOp_kept x s) h
  case forwardFrame f => exact w _ (completeFrame_steady _ _ s).kept h
  case relayFrame f => exact w _ (completeFrame_steady _ _ s).kept h
  case bFrameDiscarded f => exact w _ (completeFrame_steady _ _ s).kept h
  case requestNotTaken => exact w _ (completeFrame_steady _ _ s).kept h
  case badCommand => exact w _ (completeFrame_steady _ _ s).kept h
  case levelFrameA f => exact w _ (runFrameCommand_steady (.levelFrameA f) s).kept h
  case levelFrameB f => exact w _ (runFrameCommand_steady (.levelFrameB f) s).kept h
  case identify h' e => exact w _ (runFrameCommand_steady (.identify h' e) s).kept h
  case readStatus h' e => exact w _ (runFrameCommand_steady (.readStatus h' e) s).kept h
  case readChannels h' f c e => exact w _ (runFrameCommand_steady (.readChannels h' f c e) s).kept h
  case readInputs h' p f c e => exact w _ (runFrameCommand_steady (.readInputs h' p f c e) s).kept h
  case readTable h' b t' i c e => exact w _ (runFrameCommand_steady (.readTable h' b t' i c e) s).kept h
  case openSession h' t' e => exact w _ (runFrameCommand_steady (.openSession h' t' e) s).kept h
  case writeTable h' t' tb i c e => exact w _ (runFrameCommand_steady (.writeTable h' t' tb i c e) s).kept h
  case commit h' t' x e => exact w _ (runFrameCommand_steady (.commit h' t' x e) s).kept h
  case abortSession h' t' e => exact w _ (runFrameCommand_steady (.abortSession h' t' e) s).kept h
  case force h' f c l p e => exact w _ (runFrameCommand_steady (.force h' f c l p e) s).kept h
  case release h' f c e => exact w _ (runFrameCommand_steady (.release h' f c e) s).kept h
  case saveScene h' sc e => exact w _ (runFrameCommand_steady (.saveScene h' sc e) s).kept h
  case ackConditions h' k e => exact w _ (runFrameCommand_steady (.ackConditions h' k e) s).kept h
  case restart h' e => exact w _ (runFrameCommand_steady (.restart h' e) s).kept h

/-- No command but the resets and the PAUSE edges changes the node address, the PAUSE state or the commands that wait. -/
theorem exec_fixed {c : Instr} {s t : State} (h1 : c ≠ .hardReset) (h2 : ∀ x a b d, c ≠ .resetRelease x a b d)
    (h3 : c ≠ .pauseAssert) (h4 : c ≠ .pauseRelease) (h : exec c s = .next t) : Fixed s t := by
  by_cases h5 : c = .fadeTick
  · subst h5
    rcases whenRunning_cases h with rfl | ⟨-, rfl⟩
    · exact rfl
    · unfold fadeTickOp; dsimp only; repeat' split
      all_goals exact rfl
  · by_cases h6 : c = .refreshExpiry
    · subst h6
      rcases whenRunning_cases h with rfl | ⟨-, rfl⟩
      · exact rfl
      · exact refreshExpiryOp_fixed s
    · exact (exec_kept h1 h2 h3 h4 h5 h6 h).fixed

end Sys2Proof.Machine
end

