-- ==== Sys2Proof/Laws/Ports.lean ====
section
/-! SUPPORT. What a resolution event, an accepted frame, a loss expiry and a hold expiry can do. -/

namespace Sys2Proof.Machine

/-! ## Resolutions -/

/-- What a resolution reads: the parks, the ports, the active bank and the scenes (R53). -/
theorem resolveTarget_congr {s t : State} (h1 : t.parks = s.parks) (h2 : t.ports = s.ports)
    (h3 : t.activeBank = s.activeBank)
    (h4 : t.scenes = s.scenes) (c : Fin Config.channels)
        (r : TargetRecord) : resolveTarget t c r = resolveTarget s c r := by
  unfold resolveTarget State.mapProfile State.liveLevel State.fallbackLevel State.config
  rw [h1, h2, h3, h4]

/-- Latchings and notices do not change what a resolution gives. -/
theorem Noticed.resolveTarget {s t : State} (h : Noticed s t) (c : Fin Config.channels) (r : TargetRecord) :
    resolveTarget t c r = resolveTarget s c r :=
  resolveTarget_congr h.parks h.ports h.activeBank h.scenes c r

/-- A resolution event latches FALLBACK exactly when a channel enters SCENE, and nothing else (R57). -/
theorem resolve_hasKind (sel : Fin Config.channels → Bool) (s : State) (k : Condition) :
    hasKind (resolve sel s).latched k = true ↔ hasKind s.latched k = true ∨ (k = .fallback ∧
        EntersScene s (resolve sel s)) := by
  have ht := resolve_targets sel s
  unfold EntersScene
  rw [ht, ← enteredScene_iff]
  unfold resolve; dsimp only
  split
  · rename_i h
    rw [(latch_latches _ _).1]
    simp [h]
    rfl
  · rename_i h
    simp only [h, and_false, or_false, Bool.false_eq_true]
    rfl

/-- A resolution event latches FALLBACK, with its notice, exactly when a channel enters SCENE, and nothing else (R57). -/
theorem resolve_latches (sel : Fin Config.channels → Bool) (s : State) : LatchesThenFallback [] s (resolve sel s) := by
  have ht := resolve_targets sel s
  have hs : EntersScene s (resolve sel s) ↔ enteredScene s.targets (resolveQuiet sel s).targets = true := by
    rw [enteredScene_iff]; unfold EntersScene; rw [ht]
  have h0 : Latches [] s (resolveQuiet sel s) := .refl rfl
  unfold LatchesThenFallback
  rw [hs]
  unfold resolve; dsimp only
  refine ⟨fun h => ?_, fun h => ?_⟩
  · rw [if_pos h]; exact h0.append (latch_latches _ _) rfl rfl
  · rw [if_neg h]; exact h0

/-- What the return lines do at a resolution event (R189). -/
theorem resolve_serves (sel : Fin Config.channels → Bool) (s : State) :
    ReturnsServe s (resolve sel s) ∧ (s.NothingWaitsForFree → (resolve sel s).NothingWaitsForFree) := by
  have h0 : ReturnsServe s (resolveQuiet sel s) := .of_same rfl rfl rfl rfl rfl
  unfold resolve; dsimp only; split
  · obtain ⟨a, b⟩ := latch_serves .fallback (resolveQuiet sel s)
    exact ⟨h0.trans a id (latch_noticed _ _).now, b⟩
  · exact ⟨h0, id⟩

/-- What latches before a resolution event latches before FALLBACK. -/
theorem Latches.thenFallback {ks : List Condition} {s t u : State} (h : Latches ks s t)
    (h' : LatchesThenFallback [] t u) (h1 : t.node = s.node) (h2 : t.activeBank = s.activeBank)
    (hk : ∀ c : Fin Config.channels, t.targets[c].kind = s.targets[c].kind) : LatchesThenFallback ks s u := by
  have hs : EntersScene s u ↔ EntersScene t u := by unfold EntersScene; simp only [hk]
  unfold LatchesThenFallback
  rw [hs]
  refine ⟨fun x => h.append (h'.1 x) h1 h2, fun x => ?_⟩
  have := h.append (h'.2 x) h1 h2
  rwa [List.append_nil] at this

/-- A resolution event, channel by channel, as seen from the state after it (R53). -/
theorem resolve_target (sel : Fin Config.channels → Bool) (s : State) (c : Fin Config.channels) :
    (resolve sel s).targets[c] = if sel c then resolveTarget (resolve sel s) c s.targets[c] else s.targets[c] := by
  rw [(resolve_noticed sel s).resolveTarget, show resolveTarget (resolveQuiet sel s) c = resolveTarget s c from rfl]
  rw [resolve_targets, resolveQuiet_target]

/-! ## Port units -/

/-- The level a frame carries for a slot of its range (R20). -/
theorem frameLevel_in {f : LevelFrame} {i : Fin Config.channels} (h : f.first.toNat ≤ i.val ∧
    i.val < f.first.toNat + f.levels.length) :
    frameLevel f i = some (f.levels[i.val - f.first.toNat]'(by omega)) := by
  unfold frameLevel; rw [if_pos h.1]; simp

/-- A frame carries no level for a slot outside its range (R20). -/
theorem frameLevel_out {f : LevelFrame} {i : Fin Config.channels} (h : ¬ (f.first.toNat ≤ i.val ∧
    i.val < f.first.toNat + f.levels.length)) :
    frameLevel f i = none := by
  unfold frameLevel; split
  · simp; omega
  · rfl

/-- The slots after a frame: those of its range hold its levels and are valid, the others are as before (R20). -/
theorem writeSlots_get (slots : Vector Slot Config.channels) (f : LevelFrame) (i : Fin Config.channels) :
    (writeSlots slots f)[i] = if h : f.first.toNat ≤ i.val ∧ i.val < f.first.toNat + f.levels.length then
          ⟨f.levels[i.val - f.first.toNat]'(by omega), true⟩
        else slots[i] := by
  unfold writeSlots
  simp only [Fin.getElem_fin, Table.getElem_mapFin]
  by_cases h : f.first.toNat ≤ i.val ∧ i.val < f.first.toNat + f.levels.length
  · rw [dif_pos h, frameLevel_in h]
  · rw [dif_neg h, frameLevel_out h]

/-- A good-frame event leaves the slots and the sequence alone and starts the loss timer (R25 to R27). -/
theorem goodFrameUnit_rest (now loss n : Nat) (u : PortUnit) :
    (goodFrameUnit now loss n u).1.slots = u.slots ∧ (goodFrameUnit now loss n u).1.lastSequence = u.lastSequence ∧
    (goodFrameUnit now loss n u).1.lossAt = some (now + loss) := by
  unfold goodFrameUnit; dsimp only
  repeat' split
  all_goals exact ⟨rfl, rfl, rfl⟩

/-- The ports that enter LIVE at a good-frame event are those RESTORE_x latches for (R26, R27). -/
theorem goodFrameUnit_live (now loss n : Nat) (u : PortUnit) :
    (goodFrameUnit now loss n u).2 = true ↔ u.state ≠ .live ∧ (goodFrameUnit now loss n u).1.state = .live := by
  unfold goodFrameUnit; dsimp only
  repeat' split
  all_goals simp_all

/-- The ports after a good-frame event (R25 to R27). -/
theorem goodFrame_port (p : Port) (s : State) :
    (goodFrame p s).ports = s.ports.set p (goodFrameUnit s.now (s.lossClocks p) s.config.acquireCount.toNat
        (s.ports.get p)).1 := by
  unfold goodFrame; dsimp only
  split
  · rw [(latch_noticed _ _).ports]; rfl
  · rfl

/-- A good-frame event changes the ports and what a latching changes (R26). -/
theorem goodFrame_noticed (p : Port) (s : State) :
    Noticed { s with ports := (goodFrame p s).ports } (goodFrame p s) := by
  rw [goodFrame_port]
  unfold goodFrame; dsimp only
  split
  · exact latch_noticed _ _
  · rfl

/-- A good-frame event latches RESTORE_x exactly when the port enters LIVE (R26, R27). -/
theorem goodFrame_hasKind (p : Port) (s : State) (k : Condition) :
    hasKind (goodFrame p s).latched k = true ↔ hasKind s.latched k = true ∨
      (k = .restore p ∧ (s.ports.get p).state ≠ .live ∧ ((goodFrame p s).ports.get p).state = .live) := by
  rw [goodFrame_port, PerPort.get_set, if_pos rfl, ← goodFrameUnit_live]
  unfold goodFrame; dsimp only
  split
  · rename_i h
    rw [(latch_latches _ _).1]; simp [h]
  · rename_i h
    simp [h]

/-- A good-frame event latches RESTORE_x, with its notice, exactly when the port enters LIVE, and the return lines serve it
(R26, R27, R183). -/
theorem goodFrame_latches (p : Port) (s : State) :
    Latches (if (s.ports.get p).state ≠ .live ∧ ((goodFrame p s).ports.get p).state = .live then [.restore p] else [])
      s (goodFrame p s) ∧
    ReturnsServe s (goodFrame p s) ∧ (s.NothingWaitsForFree → (goodFrame p s).NothingWaitsForFree) := by
  rw [goodFrame_port, PerPort.get_set, if_pos rfl]
  simp only [← goodFrameUnit_live]
  have h0 : ∀ u, Latches [] s (s.setPort p u) := fun _ => .refl rfl
  have h1 : ∀ u, ReturnsServe s (s.setPort p u) := fun _ => .of_same rfl rfl rfl rfl rfl
  unfold goodFrame; dsimp only
  split
  · obtain ⟨a, b⟩ := latch_serves (.restore p) (s.setPort p (goodFrameUnit s.now (s.lossClocks p)
      s.config.acquireCount.toNat (s.ports.get p)).1)
    exact ⟨(h0 _).append (latch_latches _ _) rfl rfl, (h1 _).trans a id (latch_noticed _ _).now, b⟩
  · exact ⟨h0 _, h1 _, id⟩

/-- The latchings of an accepted frame in order, with their notices, and what the return lines do with these (R26, R27,
R57, R183). -/
theorem acceptFrame_latches (p : Port) (f : LevelFrame) (s : State) :
    LatchesThenFallback (if (s.ports.get p).state ≠ .live ∧ ((acceptFrame p f s).ports.get p).state = .live then
      [.restore p] else []) s (acceptFrame p f s) ∧ ReturnsServe s (acceptFrame p f s) := by
  set s0 := s.setPort p { s.ports.get p with
    slots := writeSlots (s.ports.get p).slots f, lastSequence := f.sequence } with hs0
  set s1 := goodFrame p s0 with hs1
  set s2 := moveOwners p (changesValid (s.ports.get p).slots f) s1 with hs2
  obtain ⟨l1, r1, n1⟩ := goodFrame_latches p s0
  rw [← hs1] at l1 r1 n1
  have ht : ∃ sel, acceptFrame p f s = resolve sel s2 := ⟨_, rfl⟩
  obtain ⟨sel, ht⟩ := ht
  rw [ht]
  have hp : (resolve sel s2).ports = s1.ports := (resolve_noticed sel s2).ports
  have hst : (s0.ports.get p).state = (s.ports.get p).state := by rw [hs0]; simp
  rw [hst] at l1
  rw [hp]
  have hn : Noticed { s0 with ports := s1.ports } s1 := goodFrame_noticed p s0
  have l2 : Latches _ s s2 := l1.congr (s' := s) (t' := s2) rfl rfl rfl rfl
  have r2 : ReturnsServe s s2 :=
    r1.congr (s' := s) (t' := s2) rfl rfl rfl rfl rfl id rfl rfl rfl rfl rfl rfl
  refine ⟨l2.thenFallback (resolve_latches sel s2) hn.node hn.activeBank fun c => ?_,
    r2.trans (resolve_serves sel s2).1 n1 (resolve_noticed sel s2).now⟩
  have ht1 : s1.targets = s.targets := hn.targets
  have : s2.targets[c] = moveOwner p (changesValid (s.ports.get p).slots f) s1.activeBank.map[c] s1.targets[c] := by
    rw [hs2]; unfold moveOwners; simp only [Fin.getElem_fin, Table.getElem_mapFin]
  rw [this, ht1]; unfold moveOwner; repeat' split
  all_goals rfl

/-- All that an accepted frame does: the port, the owners and targets, the latchings, and nothing else (R20, R21,
R47, R58). -/
theorem acceptFrame_facts (p : Port) (f : LevelFrame) (s : State) :
    let u := s.ports.get p
    let v := (goodFrameUnit s.now (s.lossClocks p) s.config.acquireCount.toNat
      { u with slots := writeSlots u.slots f, lastSequence := f.sequence }).1
    let t := acceptFrame p f s
    t.ports = s.ports.set p v ∧
    Noticed { s with ports := t.ports, targets := t.targets } t ∧
    (∀ c : Fin Config.channels, t.targets[c] =
      let r := moveOwner p (changesValid u.slots f) s.activeBank.map[c] s.targets[c]
      if entryConcerned p (inChangeSet u.slots f)
          (v.state != u.state) s.activeBank.map[c] then resolveTarget t c r else r) ∧
    (∀ k, hasKind t.latched k = true ↔ hasKind s.latched k = true ∨
        (k = .restore p ∧ u.state ≠ .live ∧ v.state = .live) ∨ (k = .fallback ∧ EntersScene s t)) := by
  intro u v t
  set s0 := s.setPort p { u with slots := writeSlots u.slots f, lastSequence := f.sequence } with hs0
  set s1 := goodFrame p s0 with hs1
  set s2 := moveOwners p (changesValid u.slots f) s1 with hs2
  have hn1 : Noticed { s0 with ports := s1.ports } s1 := goodFrame_noticed p s0
  have hp1 : s1.ports = s.ports.set p v := by
    rw [hs1, goodFrame_port]
    simp only [hs0, setPort_ports, PerPort.get_set, if_pos, setPort_now]
    cases p <;> rfl
  have hp2 : s2.ports = s1.ports := rfl
  have ht : t = portReport p (inChangeSet u.slots f) ((s1.ports.get p).state != u.state) s2 := rfl
  have hv : (s1.ports.get p) = v := by rw [hp1]; simp
  have hb : s2.activeBank = s.activeBank := by
    show s1.activeBank = _
    rw [hn1.activeBank]; rfl
  rw [hv] at ht
  set sel : Fin Config.channels → Bool := fun c => entryConcerned p (inChangeSet u.slots f)
      (v.state != u.state) s2.activeBank.map[c] with hsel
  have ht' : t = resolve sel s2 := ht
  have hn2 : Noticed (resolveQuiet sel s2) t := by rw [ht']; exact resolve_noticed _ _
  have htp : t.ports = s.ports.set p v := by rw [hn2.ports, ← hp1]; rfl
  have hs2' : s2 = { s1 with targets := s2.targets } := rfl
  have hs0' : s0 = { s with ports := s0.ports } := rfl
  have hl0 : s0.latched = s.latched := rfl
  have hk1 := goodFrame_hasKind p s0
  rw [← hs1, hv, hl0] at hk1
  have hst : (s0.ports.get p).state = u.state := by rw [hs0]; simp
  rw [hst] at hk1
  have ht1 : s1.targets = s.targets := by rw [hn1.targets]; rfl
  have ht2 : ∀ c : Fin Config.channels, s2.targets[c] =
      moveOwner p (changesValid u.slots f) s.activeBank.map[c] s.targets[c] := by
    intro c
    rw [hs2]; unfold moveOwners
    simp only [Fin.getElem_fin, Table.getElem_mapFin]
    rw [ht1, show s1.activeBank = s.activeBank from hb]
  refine ⟨htp, ?_, ?_, ?_⟩
  · clear_value s2 s1 s0
    rw [htp]
    unfold Noticed at *
    rw [hn2]
    unfold resolveQuiet
    rw [hs2', hn1, hs0']
    simp only [hp1]
  · intro c
    rw [ht', resolve_target, ht2 c, hsel]
    simp only [hb]
  · intro k
    rw [ht', resolve_hasKind, show s2.latched = s1.latched from rfl, hk1]
    have : EntersScene s2 (resolve sel s2) ↔ EntersScene s (resolve sel s2) := by
      unfold EntersScene
      have : ∀ c : Fin Config.channels, s2.targets[c].kind = s.targets[c].kind := by
        intro c; rw [ht2]; unfold moveOwner; repeat' split
        all_goals rfl
      simp only [this]
    rw [this, or_assoc]

/-- A well-formed LEVEL frame of the accepted stream is taken by its port (R18, R19). -/
theorem levelCommand_accepted (p : Port) (f : LevelFrame) (s : State) (h : s.inReset = false)
    (hw : f.wellFormed = true)
    (ha : f.stream.setWidth 8 = s.config.accepted.get p) :
    exec (levelCommand p f) s = .next (acceptFrame p f (settle (rxOf p) s)) := by
  cases p
  · simp only [exec, levelCommand, execLevelFrameA]; rw [whenRunning_next h]
    unfold onLevelA levelAtA; rw [levelError_none hw]
    simp only
    rw [if_pos (by exact ha)]; rfl
  · simp only [exec, levelCommand, execLevelFrameB]; rw [whenRunning_next h]
    unfold onLevelB levelAtB; rw [levelError_none hw]
    simp only
    rw [if_pos (by exact ha)]; rfl

/-- A source that a frame moves is a source that it concerns (R47, R58). -/
theorem moved_concerned {slots : Vector Slot Config.channels} {f : LevelFrame} {p : Port} {src : Option Source} (b :
    Bool)
    (h : sourceMoved p (changesValid slots f) src = true) : sourceConcerned p (inChangeSet slots f) b src = true := by
  unfold sourceMoved sourceConcerned at h
  unfold sourceConcerned
  cases src with
  | none => simp at h
  | some x =>
    simp only [Bool.false_or, Bool.and_eq_true, decide_eq_true_eq, Bool.or_eq_true] at *
    refine ⟨h.1, .inr ?_⟩
    have h2 := h.2
    unfold changesValid at h2
    unfold inChangeSet
    cases hx : frameLevel f x.slot with
    | none => rw [hx] at h2; simp at h2
    | some v => rw [hx] at h2; simp only [Bool.and_eq_true] at h2; simp only [h2.2, Bool.or_true]

/-- A channel that an accepted frame does not concern keeps its owner (R47, R58). -/
theorem moveOwner_unconcerned {slots : Vector Slot Config.channels} {f : LevelFrame} {p : Port} {e : MapEntry} {b :
    Bool} (t : TargetRecord)
    (h : ¬ entryConcerned p (inChangeSet slots f) b e = true) : moveOwner p (changesValid slots f) e t = t := by
  unfold entryConcerned at h
  simp only [Bool.or_eq_true, not_or] at h
  unfold moveOwner
  rw [if_neg (fun x => h.1 (moved_concerned b x)), if_neg (fun x => h.2 (moved_concerned b x))]
  split <;> rfl

/-- The code of LATEST (R211). -/
theorem mergeRule_latest (e : MapEntry) : e.mergeRule = .latest ↔ e.rule = 4 := by
  unfold MapEntry.mergeRule
  have : ∀ r : BitVec 3, (MergeRule.ofCode r).getD .noMerge = .latest ↔ r = 4 := by decide
  exact this _

/-- Invalidated slots keep their levels (R22). -/
theorem invalidate_invalidated (v : Vector Slot Config.channels) : Invalidated v (invalidate v) := by
  intro i; unfold invalidate; simp

/-- A report that a port's state changed resolves the channels with a source on the port, and nothing else (R21,
R58). -/
theorem stateReport_facts (p : Port) (s : State) :
    Noticed { s with targets := (stateReport p s).targets } (stateReport p s) ∧
    (∀ c : Fin Config.channels,
         (OnPort p s.activeBank.map[c].sources.1 ∨ OnPort p s.activeBank.map[c].sources.2 →
           (stateReport p s).targets[c] = resolveTarget (stateReport p s) c s.targets[c]) ∧
         (¬ OnPort p s.activeBank.map[c].sources.1 → ¬ OnPort p s.activeBank.map[c].sources.2 →
           (stateReport p s).targets[c] = s.targets[c])) ∧
    (∀ k, hasKind (stateReport p s).latched k = true ↔ hasKind s.latched k = true ∨
      (k = .fallback ∧ EntersScene s (stateReport p s))) := by
  have hs : ∀ src, sourceConcerned p (fun _ => false) true src = true ↔ OnPort p src := by
    intro src
    unfold sourceConcerned OnPort
    cases src with
    | none => simp
    | some x =>
      obtain ⟨q, i⟩ := x
      simp
  refine ⟨?_, ?_, ?_⟩
  · have := resolve_noticed (fun c => entryConcerned p (fun _ => false) true s.activeBank.map[c]) s
    have h2 : stateReport p s = resolve (fun c => entryConcerned p (fun _ => false) true s.activeBank.map[c]) s := rfl
    rw [← h2] at this
    have h3 : (stateReport p s).targets = _ := this.targets
    unfold Noticed at *
    rw [h3]
    exact this
  · intro c
    have : (stateReport p s).targets[c] = _ := resolve_target (fun c => entryConcerned p (fun _ => false) true
        s.activeBank.map[c]) s c
    rw [this]
    have h2 : stateReport p s = resolve (fun c => entryConcerned p (fun _ => false) true s.activeBank.map[c]) s := rfl
    have h4 : entryConcerned p (fun _ => false) true s.activeBank.map[c] = true ↔
        OnPort p s.activeBank.map[c].sources.1 ∨ OnPort p s.activeBank.map[c].sources.2 := by
      unfold entryConcerned; rw [Bool.or_eq_true, hs, hs]
    refine ⟨fun h => by rw [if_pos (h4.mpr h), h2], fun h1 h3 => by rw [if_neg (by rw [h4]; tauto)]⟩
  · exact resolve_hasKind _ s

/-- The latching of a report that a port's state changed, and what the return lines do with it (R57, R183). -/
theorem stateReport_latches (p : Port) (s : State) : LatchesThenFallback [] s (stateReport p s) ∧
    ReturnsServe s (stateReport p s) ∧ (s.NothingWaitsForFree → (stateReport p s).NothingWaitsForFree) :=
  ⟨resolve_latches _ s, resolve_serves _ s⟩

/-- A loss expiry in ACQUIRING (R28). -/
theorem lossEvent_acquiring {p : Port} {n : Nat} {s : State} (h : (s.ports.get p).state = .acquiring) :
    lossEvent p n s = stateReport p (s.setPort p { s.ports.get p with lossAt := none }.released) := by
  unfold lossEvent; dsimp only
  split <;> first | rfl | simp_all

/-- A loss expiry in LIVE (R29). -/
theorem lossEvent_live {p : Port} {n : Nat} {s : State} (h : (s.ports.get p).state = .live) :
    lossEvent p n s = if s.config.holdTime.get p = 0 then
      stateReport p
        (latch (.releaseOf p) (latch (.loss p) (s.setPort p { s.ports.get p with lossAt := none }.released)))
    else
      stateReport p (latch (.loss p) (s.setPort p
        { s.ports.get p with lossAt := none, state := .holding, holdAt := some (n + s.holdClocks p) })) := by
  unfold lossEvent; dsimp only
  split <;> first | rfl | simp_all

/-- A hold expiry in HOLDING (R30). -/
theorem holdEvent_holding {p : Port} {s : State} (h : (s.ports.get p).state = .holding) :
    holdEvent p s = stateReport p (latch (.releaseOf p) (s.setPort p { s.ports.get p with holdAt :=
        none }.released)) := by
  unfold holdEvent; dsimp only
  split <;> first | rfl | simp_all

end Sys2Proof.Machine
end

