-- ==== Sys2Proof/Laws/Events.lean ====
section
/-! SUPPORT. What a completion on a return line, a latching, a verification and a changeover can do. -/

namespace Sys2Proof.Machine

/-! ## Return lines -/

/-- Whether the queue has an entry with the port's transmitter (R138). -/
theorem removeSending_none {p : Port} {q : List QueueEntry} : removeSending p q = none ↔
    q.countP (·.sendsOn p) = 0 := by
  induction q with
  | nil => simp [removeSending]
  | cons e rest ih =>
    unfold removeSending
    by_cases he : e.destination = p ∧ e.state = .sending
    · simp [he, QueueEntry.sendsOn]
    · have hw : ¬ e.sendsOn p = true := by simpa [QueueEntry.sendsOn] using he
      rw [if_neg he, Option.map_eq_none_iff, ih, List.countP_cons_of_neg hw]

/-- The entry with the port's transmitter leaves; the others keep their order (R138). -/
theorem removeSending_split {p : Port} {l : List QueueEntry} {e : QueueEntry} (r : List QueueEntry)
    (he : e.sendsOn p = true) (hl : l.countP (·.sendsOn p) = 0) :
    removeSending p (l ++ e :: r) = some (l ++ r) := by
  induction l with
  | nil => unfold removeSending; simp only [List.nil_append]; rw [if_pos (by simpa [QueueEntry.sendsOn] using he)]
  | cons x l ih =>
    simp only [List.countP_cons] at hl
    have hx : ¬ x.sendsOn p = true := by intro h; simp [h] at hl
    have := ih (by omega)
    simp only [List.cons_append]
    unfold removeSending
    rw [if_neg (by simpa [QueueEntry.sendsOn] using hx), this]; rfl

/-- No kind is lowest in the empty set (R190). -/
theorem lowestKind_zero : lowestKind 0 = none := by decide

/-- The first kind of a rising list that satisfies `p` is the lowest that does. -/
theorem find_lowest (p : Condition → Bool) (k : Condition) (l : List Condition)
    (hs : l.Pairwise fun x y => x.number < y.number) (hm : k ∈ l) (hk : p k = true)
    (hl : ∀ j : Condition, j.number < k.number → p j = false) : l.find? p = some k := by
  induction l with
  | nil => cases hm
  | cons x l ih =>
    rw [List.pairwise_cons] at hs
    rcases List.mem_cons.mp hm with rfl | hm
    · simp [hk]
    · rw [List.find?_cons_of_neg (by simp [hl x (hs.1 k hm)])]
      exact ih hs.2 hm

/-- The lowest kind of a set (R190). -/
theorem lowestKind_some {set : KindSet} {k : Condition} (hk : hasKind set k = true)
    (hl : ∀ j : Condition, j.number < k.number → hasKind set j = false) : lowestKind set = some k :=
  find_lowest _ k _ (by decide) k.mem_all hk hl

/-- The kind that moves into the queue (R190). -/
theorem drainPending_eq {s : State} {k : Condition} (h : lowestKind s.pendingNotices = some k) :
    drainPending s = queueNotice k { s with pendingNotices := removeKinds s.pendingNotices (addKind 0 k) } := by
  unfold drainPending; rw [h]

/-- With no kind pending nothing moves (R190). -/
theorem drainPending_zero {s : State} (h : s.pendingNotices = 0) : drainPending s = s := by
  unfold drainPending; rw [h, lowestKind_zero]

/-! ## Conditions and the changeover -/

/-- A latching keeps ALERT as the latched set and the mask have it (R183, R187). -/
theorem latch_alertFollows {k : Condition} {s : State} (h : s.AlertFollows) : (latch k s).AlertFollows := by
  have hc : (latch k s).config = s.config := (latch_noticed k s).config
  unfold State.AlertFollows at *
  rw [hc]
  have ha : (latch k s).alert = if hasKind s.latched k then s.alert else addKind s.latched k &&& s.config.alertMask
      != 0 := by
    rw [latch_eq]; split
    · rw [(offerNotice_latched k _).2, latchFlag_eq]
    · rw [latchFlag_eq]
  rw [ha, latch_latched]
  split
  · rename_i hk; rw [addKind_of_hasKind hk]; exact h
  · exact and_ne_zero_iff _ _

/-- ALERT evaluated afresh is as the latched set and the mask have it (R187). -/
theorem evalAlert_alertFollows (s : State) : s.evalAlert.AlertFollows := by
  unfold State.AlertFollows; exact and_ne_zero_iff _ _

/-- What ALERT depends on. -/
theorem State.AlertFollows.of {s t : State} (h : s.AlertFollows) (h1 : t.latched = s.latched)
    (h2 : t.alert = s.alert) (h3 : t.activeBank = s.activeBank) : t.AlertFollows := by
  unfold State.AlertFollows State.config at *; rw [h1, h2, h3]; exact h

/-- The ports that a changeover silences (R33). -/
theorem silenceIfAltered_get (old : ConfigRecord) (p q : Port) (s : State) :
    (silenceIfAltered old p s).ports.get q = if p = q ∧
        old.accepted.get p ≠ s.config.accepted.get p then (s.ports.get q).silenced else s.ports.get q := by
  unfold silenceIfAltered
  split
  · rename_i h; rw [if_neg (by tauto)]
  · rename_i h
    rw [setPort_ports, PerPort.get_set]
    by_cases hq : q = p
    · subst hq; rw [if_pos rfl, if_pos ⟨rfl, h⟩]
    · rw [if_neg hq, if_neg (fun x => hq x.1.symm)]

/-- Silencing a port changes the ports only. -/
theorem silenceIfAltered_rest (old : ConfigRecord) (p : Port) (s : State) :
    silenceIfAltered old p s = { s with ports := (silenceIfAltered old p s).ports } := by
  unfold silenceIfAltered; split <;> rfl

/-- All that a changeover does (R33, R57, R60, R87, R171, R192). -/
theorem changeover_facts (k : Crc32) (s : State) :
    let t := changeover k s
    (∀ p, t.ports.get p =
      if s.config.accepted.get p = s.shadowBank.config.accepted.get p then s.ports.get p
      else (s.ports.get p).silenced) ∧
    (∀ c : Fin Config.channels, t.targets[c] = resolveTarget t c { s.targets[c] with owner := .nobody }) ∧
    LatchesThenFallback [.commitDone] { s with active := s.active.other, alert := t.alert } t ∧
    t.AlertFollows ∧
    ReturnsServe s t ∧
    Noticed
      { s with
        active := s.active.other
        checksum := k
        outcome := .done
        session := .copying s.now
        choices := t.choices
        tickAt := t.tickAt
        fades := t.fades
        ports := t.ports
        targets := t.targets }
      t := by
  intro t
  set s0 := exchangeBanks k s with hs0
  set s1 := latch .commitDone s0 with hs1
  have n1 : Noticed s0 s1 := latch_noticed _ _
  set s1' := tickWithin s1 with hs1'
  have n1' : s1' = { s1 with choices := s1'.choices, tickAt := s1'.tickAt, fades := s1'.fades } := tickWithin_rest s1
  set s2 := silenceIfAltered s.config .b (silenceIfAltered s.config .a s1') with hs2
  have n2 : s2 = { s1' with ports := s2.ports } := by
    rw [hs2, silenceIfAltered_rest, silenceIfAltered_rest s.config .a]
  set s3 := clearOwners s2 with hs3
  have n3 : s3 = { s2 with targets := s3.targets } := rfl
  have ht : t = resolve (fun _ => true) s3 := rfl
  have n4 : Noticed (resolveQuiet (fun _ => true) s3) t := resolve_noticed _ _
  have hc0 : s0.config = s.shadowBank.config := rfl
  have hc1 : s1'.config = s.shadowBank.config := by
    rw [show s1'.config = s1.config by rw [n1']; rfl]; exact n1.config.trans hc0
  have hc1a : (silenceIfAltered s.config .a s1').config = s.shadowBank.config := by
    rw [silenceIfAltered_rest]; exact hc1
  have hp1 : s1'.ports = s.ports := by rw [n1']; exact n1.ports.trans rfl
  have tp : t.ports = s2.ports := n4.ports
  have t3 : ∀ c : Fin Config.channels, s3.targets[c] = { s.targets[c] with owner := .nobody } := by
    intro c
    have : s2.targets = s.targets := by rw [n2, n1']; exact n1.targets
    rw [hs3]; unfold clearOwners; simp only [Fin.getElem_fin, Table.getElem_mapFin]; rw [this]
  have c3 : s3.conditions = s1.conditions := by rw [n3, n2, n1']; rfl
  have l3 : Latches [.commitDone] s0 s3 := (latch_latches .commitDone s0).congr rfl rfl rfl (by rw [c3])
  have l : LatchesThenFallback [.commitDone] s0 t := by
    refine l3.thenFallback (resolve_latches _ s3) ?_ ?_ fun c => by rw [t3]; rfl
    · rw [n3, n2, n1']; exact n1.node
    · rw [n3, n2, n1']; exact n1.activeBank
  refine ⟨?_, ?_, ?_, ?_, ?_, ?_⟩
  · intro p
    rw [tp, hs2, silenceIfAltered_get, silenceIfAltered_get, hc1, hc1a, hp1]
    cases p <;> simp
  · intro c
    have := resolve_target (fun _ => true) s3 c
    rw [← ht, if_pos rfl, t3 c] at this
    exact this
  · have hb : ∀ ks, Latches ks s0 t → Latches ks { s with active := s.active.other, alert := t.alert } t := by
      rintro ks ⟨a, b⟩
      refine ⟨a, ?_⟩
      have hf : Conditions.latch { s with active := s.active.other, alert := t.alert } = Conditions.latch s0 :=
        Conditions.latch_congr rfl rfl
      have hv : State.conditions { s with active := s.active.other, alert := t.alert } =
          { s0.conditions with alert := t.conditions.alert } := rfl
      rw [hf, hv, b]
      rcases Conditions.foldl_latch_alert s0 ks s0.conditions (ks.foldl (Conditions.latch s0) s0.conditions).alert with
        h | h <;> rw [h]
    exact ⟨fun h => hb _ (l.1 h), fun h => hb _ (l.2 h)⟩
  · have a1 : s1.AlertFollows := latch_alertFollows (evalAlert_alertFollows _)
    have a3 : s3.AlertFollows :=
      State.AlertFollows.of a1 (by rw [n3, n2, n1']) (by rw [n3, n2, n1']) (by rw [n3, n2, n1']; rfl)
    have a4 : (resolveQuiet (fun _ => true) s3).AlertFollows := State.AlertFollows.of a3 rfl rfl rfl
    rw [ht]; unfold resolve; dsimp only; split
    · exact latch_alertFollows a4
    · exact a4
  · have r0 : ReturnsServe s s0 := .of_same rfl rfl rfl rfl rfl
    obtain ⟨r1, k1⟩ := latch_serves .commitDone s0
    obtain ⟨r3, -⟩ := resolve_serves (fun _ => true) s3
    have e3 : s3.tx = s1.tx ∧ s3.relay = s1.relay ∧ s3.queue = s1.queue ∧ s3.preference = s1.preference ∧
        (s1.NothingWaitsForFree → s3.NothingWaitsForFree) := by
      rw [n3, n2, n1']; exact ⟨rfl, rfl, rfl, rfl, id⟩
    have r2 : ReturnsServe s1 s3 := .of_same (by rw [e3.1]) (by rw [e3.1]) e3.2.1 e3.2.2.1 e3.2.2.2.1
    have now3 : s3.now = s1.now := by rw [n3, n2, n1']
    exact ((r0.trans r1 id n1.now).trans r2 k1 now3).trans r3 (fun n => e3.2.2.2.2 (k1 n)) n4.now
  · have t4 : t.targets = (resolveQuiet (fun _ => true) s3).targets := n4.targets
    have c4 : t.choices = s1'.choices ∧ t.tickAt = s1'.tickAt ∧ t.fades = s1'.fades := by
      have : s3.choices = s1'.choices ∧ s3.tickAt = s1'.tickAt ∧ s3.fades = s1'.fades := by
        rw [n3, n2]; exact ⟨rfl, rfl, rfl⟩
      exact ⟨n4.linked.choices.trans this.1, n4.tickAt.trans this.2.1, n4.fades.trans this.2.2⟩
    rw [tp, c4.1, c4.2.1, c4.2.2]
    unfold Noticed at *
    clear_value t s3 s2 s1' s1
    rw [n4]
    unfold resolveQuiet
    rw [n3, n2, n1', n1, hs0]
    unfold exchangeBanks State.evalAlert
    rfl

/-- A list of checks passes when every check does (R165). -/
theorem firstFailed_none (l : List (Bool × FailureReason)) : firstFailed l = none ↔ ∀ x ∈ l, x.1 = false := by
  induction l with
  | nil => simp [firstFailed]
  | cons a l ih =>
    obtain ⟨b, r⟩ := a
    cases b <;> simp [firstFailed, ih]

end Sys2Proof.Machine
end

