-- ==== Sys2Proof/Laws/Requests.lean ====
section
/-! SUPPORT. What an executed request can do: its answer, the conditions it leaves and what the return lines do. -/

namespace Sys2Proof.Machine

/-- Replies only move between the queue, the return transmitters and the relay FIFO. -/
theorem joinQueue_frame (m : Message) (p : Port) (s : State) :
    joinQueue m p s = { s with
      tx := { s.tx with a := (joinQueue m p s).tx.a, b := (joinQueue m p s).tx.b }
      relay := (joinQueue m p s).relay
      queue := (joinQueue m p s).queue
      preference := (joinQueue m p s).preference } := by
  cases p
  · unfold joinQueue serveReturn; dsimp only; rw [serveA_frame]
  · unfold joinQueue serveReturn; dsimp only; rw [serveB_frame]

theorem offerNotices_serves (ks : List Condition) (s : State) :
    ReturnsServe s (offerNotices ks s) ∧ (s.NothingWaitsForFree → (offerNotices ks s).NothingWaitsForFree) := by
  induction ks generalizing s with
  | nil => exact ⟨.of_same rfl rfl rfl rfl rfl, id⟩
  | cons k ks ih =>
    obtain ⟨a, b⟩ := offerNotice_serves k s
    obtain ⟨c, d⟩ := ih (offerNotice k s)
    exact ⟨a.trans c b (offerNotices_noticed ks _).now, fun n => d (b n)⟩

/-- The reply and the notices of a request go the way of the return lines (R137, R189). -/
theorem finishRequest_serves (h : RequestHeader) (code : Byte) (c : Carried) :
    ReturnsServe c.state (finishRequest h code c) ∧
      (c.state.NothingWaitsForFree → (finishRequest h code c).NothingWaitsForFree) := by
  have e : ∀ ks s, (latchFlags ks s).1 = { s with
      latched := (latchFlags ks s).1.latched, alert := (latchFlags ks s).1.alert } := by
    intro ks
    induction ks with
    | nil => intro s; rfl
    | cons k ks ih =>
      intro s
      simp only [latchFlags]
      rw [ih, latchFlag_eq]
  set s1 := (latchFlags c.latches c.state).1 with hs1
  set s2 := s1.setReplay h.port (some ⟨h.tag, code, formReply h code c s1⟩) with hs2
  have e2 : s2.tx = c.state.tx ∧ s2.relay = c.state.relay ∧ s2.queue = c.state.queue ∧
      s2.preference = c.state.preference ∧ (c.state.NothingWaitsForFree → s2.NothingWaitsForFree) := by
    rw [hs2, hs1, e]; exact ⟨rfl, rfl, rfl, rfl, id⟩
  have r0 : ReturnsServe c.state s2 := .of_same (by rw [e2.1]) (by rw [e2.1]) e2.2.1 e2.2.2.1 e2.2.2.2.1
  obtain ⟨r1, n1⟩ := joinQueue_serves (.reply (formReply h code c s1)) h.port s2
  obtain ⟨r2, n2⟩ := offerNotices_serves (latchFlags c.latches c.state).2 (answer h code (formReply h code c s1) s1)
  exact ⟨(r0.trans r1 e2.2.2.2.2 (joinQueue_linked _ _ _).now).trans r2 (fun n => n1 (e2.2.2.2.2 n))
    (offerNotices_noticed _ _).now, fun n => n2 (n1 (e2.2.2.2.2 n))⟩

/-- A broadcast carried out latches its kinds in order, each with its notice, on what carrying it out leaves (R129, R183). -/
theorem carryBroadcast_latches (carry : State → Carried) (s : State) :
    Noticed (carry s).state (carryBroadcast carry s) ∧
      Latches (carry s).latches (carry s).state (carryBroadcast carry s) ∧
      ReturnsServe (carry s).state (carryBroadcast carry s) ∧
      ((carry s).state.NothingWaitsForFree → (carryBroadcast carry s).NothingWaitsForFree) :=
  ⟨latchAll_noticed _ _, latchAll_latches _ _, latchAll_serves _ _⟩

theorem owes_flag {s : State} {v : Conditions} {k j : Condition} (h : k ≠ j) : (v.flag s k).owes s j = v.owes s j := by
  unfold Conditions.owes Conditions.flag
  split
  · rfl
  · simp only [hasKind_addKind, h.symm, decide_false, Bool.or_false]

/-- The first halves of several latchings are the claims' (R183). -/
theorem latchFlags_conditions {s : State} {ks : List Condition} (hn : ks.Nodup) {t : State}
    (h2 : t.activeBank = s.activeBank) :
    (latchFlags ks t).1.conditions = ks.foldl (fun v k => v.flag s k) t.conditions ∧
      (latchFlags ks t).2 = ks.filter (t.conditions.owes s) := by
  induction ks generalizing t with
  | nil => exact ⟨rfl, rfl⟩
  | cons k ks ih =>
    have hc : t.config = s.config := by unfold State.config; rw [h2]
    rw [List.nodup_cons] at hn
    obtain ⟨f1, f2⟩ := latchFlag_conditions k t
    have g1 : t.conditions.flag t k = t.conditions.flag s k := by unfold Conditions.flag; rw [hc]
    have g2 : t.conditions.owes t k = t.conditions.owes s k := by unfold Conditions.owes; rw [hc]
    obtain ⟨i1, i2⟩ := ih hn.2 (t := (latchFlag k t).1) ((latchFlag_noticed k t).activeBank.trans h2)
    have hf : ks.filter ((t.conditions.flag s k).owes s) = ks.filter (t.conditions.owes s) :=
      List.filter_congr fun j hj => owes_flag fun e => hn.1 (e ▸ hj)
    simp only [latchFlags, List.foldl_cons, List.filter_cons]
    rw [i1, i2, f1, f2, g1, g2, hf]
    exact ⟨rfl, rfl⟩

theorem offerNotices_conditions {s : State} {ks : List Condition} {t : State} (h1 : t.node = s.node)
    (h2 : t.activeBank = s.activeBank) :
    (offerNotices ks t).conditions = ks.foldl (fun v k => v.offer s k) t.conditions := by
  induction ks generalizing t with
  | nil => rfl
  | cons k ks ih =>
    simp only [offerNotices, List.foldl_cons]
    rw [ih ((offerNotice_noticed k t).node.trans h1) ((offerNotice_noticed k t).activeBank.trans h2),
      offerNotice_conditions k h1 h2]

/-- A request executed leaves the conditions as the claims say: the kinds flagged, its reply in the queue, the notices owed
behind it (R134, R183). -/
theorem finishRequest_conditions {s : State} (h : RequestHeader) (code : Byte) {c : Carried} (hn : c.latches.Nodup)
    (h1 : c.state.node = s.node) (h2 : c.state.activeBank = s.activeBank) :
    (finishRequest h code c).conditions = c.state.conditions.carried s c.latches
      [(.reply (formReply h code c (latchFlags c.latches c.state).1), h.port)] := by
  set s1 := (latchFlags c.latches c.state).1 with hs1
  set r := formReply h code c s1 with hr
  have n1 : Noticed c.state s1 := latchFlags_noticed _ _
  have na : Linked s1 (answer h code r s1) := answer_linked _ _ _ _
  obtain ⟨l1, l2⟩ := latchFlags_conditions (s := s) hn h2
  have ha : (answer h code r s1).conditions = { s1.conditions with entries := s1.conditions.entries ++ [(.reply r, h.port)] } := by
    set s2 := s1.setReplay h.port (some ⟨h.tag, code, r⟩) with hs2
    have e : answer h code r s1 = joinQueue (.reply r) h.port s2 := rfl
    have e1 := joinQueue_entries (.reply r) h.port s2
    have e2 := joinQueue_frame (.reply r) h.port s2
    rw [e]
    unfold State.conditions
    rw [e1, e2]
    rfl
  show (offerNotices (latchFlags c.latches c.state).2 (answer h code r s1)).conditions = _
  rw [offerNotices_conditions (s := s) ((na.node.trans n1.node).trans h1) ((na.activeBank.trans n1.activeBank).trans h2),
    ha, l2, l1]
  rfl

/-- A command that latches nothing is carried out and answered (R134). -/
theorem finishRequest_plain {h : RequestHeader} {code : Byte} {c : Carried} {s : State} (hl : c.latches = [])
    (hq : c.state.queue = s.queue) (hr : c.state.replay = s.replay) (hn : c.state.node = s.node) :
    OnlyAnswer c.state (finishRequest h code c) ∧ (finishRequest h code c).rx = c.state.rx ∧
      Answered h code c.result c.data [] s (finishRequest h code c) := by
  have e : finishRequest h code c = answer h code (formReply h code c c.state) c.state := by
    unfold finishRequest; rw [hl]; rfl
  have f : finishRequest h code c = _ := e.trans (joinQueue_frame _ _ _)
  have hs : (finishRequest h code c).summaryByte = c.state.summaryByte := by
    apply summaryByte_congr
    · rw [f]; rfl
    · rw [f]; rfl
  refine ⟨?_, ?_, ?_, ?_⟩
  · refine ⟨?_, (finishRequest_serves h code c).1⟩
    rw [e]; unfold answer; rw [joinQueue_frame]; rfl
  · rw [f]; rfl
  · rw [hs, e]; unfold answer; rw [joinQueue_entries]
    have : (c.state.setReplay h.port (some ⟨h.tag, code, formReply h code c c.state⟩)).queue = s.queue := hq
    rw [this, ← hn]; rfl
  · rw [hs, e]; unfold answer; rw [joinQueue_replay]
    show c.state.replay.set _ _ = _
    rw [hr, ← hn]; rfl

/-- A request executed whose carrying out latches nothing: its completion (R134). -/
theorem executed_plain {form : BroadcastForm} {h : RequestHeader} {code : Byte} {args : List Byte}
    {carry : State → Carried} {s : State} (he : Executes h code args s) {c : Carried}
    (hc : carry (settle (rxOf h.port) s) = c) (hl : c.latches = []) (hx : c.state.rx = (settle (rxOf h.port) s).rx)
    (hq : c.state.queue = s.queue) (hr : c.state.replay = s.replay) (hn : c.state.node = s.node) :
    Settled (rxOf h.port) s (onRequest form h code args carry s) ∧
      OnlyAnswer c.state (onRequest form h code args carry s) ∧
      Answered h code c.result c.data [] s (onRequest form h code args carry s) := by
  rw [onRequest_executed he, hc]
  obtain ⟨h1, h2, h3⟩ := finishRequest_plain hl hq hr hn (h := h) (code := code)
  exact ⟨(settle_settled _ _).of_rx (h2.trans hx), h1, h3⟩

/-- A request answered without effect (R134). -/
theorem executed_same {form : BroadcastForm} {h : RequestHeader} {code : Byte} {args : List Byte}
    {carry : State → Carried} {s : State} (he : Executes h code args s) {r : Result} {data : List Byte}
    (hc : carry (settle (rxOf h.port) s) = ⟨settle (rxOf h.port) s, r, data, []⟩) :
    Settled (rxOf h.port) s (onRequest form h code args carry s) ∧
      OnlyAnswer s (onRequest form h code args carry s) ∧
      Answered h code r data [] s (onRequest form h code args carry s) := by
  obtain ⟨h1, h2, h3⟩ := executed_plain (form := form) he hc rfl rfl rfl rfl rfl
  refine ⟨h1, ⟨?_, h2.2.congr rfl rfl rfl rfl rfl id rfl rfl rfl rfl rfl rfl⟩, h3⟩
  rw [h2.1]; rfl

end Sys2Proof.Machine
end

