-- ==== Sys2Proof/Tests/Slice0.lean ====
section
/-! SUPPORT. Tests: ill-formed commands are refused, frames written out from chapter 10 decode to their commands, the
checksums and the worked sequences of the spec, one step each; then, for each statement, states and operands that meet
its hypotheses. -/

namespace Sys2Proof.Tests

open Sys2Proof.Machine

set_option Elab.async false

/-! ## Helpers -/

/-- Whether a command gives a next state that passes a check. -/
def gives (c : Instr) (s : State) (f : State → Bool) : Bool :=
  match exec c s with
  | .next t => f t
  | .fault _ => false
  | .refused _ => false

/-- The part with its transmitters free. -/
def idlePart : State := { State.reset with tx := ⟨.free, .free, .free⟩ }

/-- A request at A for the node of the reset state. -/
def atA : RequestHeader := ⟨.a, 63, 5, 0⟩

/-- The part with another configuration record in force. -/
def withConfig (c : ConfigRecord) (s : State) : State := { s with banks := ⟨{ Bank.default with config := c }, .default⟩ }

/-- The part with map entry 0 replaced. -/
def withEntry (e : MapEntry) (s : State) : State :=
  { s with banks := ⟨{ Bank.default with map := Bank.default.map.set 0 e }, .default⟩ }

/-- Profile 3 of 4.10.1. -/
def ramp3 : ProfileRecord where
  kind := 2
  reserved1 := 0
  startRate := 256
  breakRate := 1024
  maxRate := 2048
  accelLow := 256
  accelHigh := 128
  decelHigh := 256
  decelLow := 128
  floorRate := 128
  reserved22 := 0

/-- Profile 7 of 11.5.2. -/
def ramp7 : ProfileRecord :=
  { ramp3 with
    startRate := 4096, breakRate := 32768, maxRate := 65536, accelLow := 4096, accelHigh := 2048, decelHigh := 8192
    decelLow := 4096, floorRate := 1024 }

/-- A SLEW profile with Rm = 65,536 (11.5.4). -/
def slew2 : ProfileRecord := { ProfileRecord.default with kind := 1, maxRate := 65536 }

/-- A port unit in a state, with its loss timer. -/
def portIn (st : PortState) (acquired : Nat) (lossAt holdAt : Option Nat) : PortUnit :=
  { PortUnit.reset with state := st, acquired := acquired, lossAt := lossAt, holdAt := holdAt }

/-- A LEVEL frame of stream 0 that fills slots 40 and 41 (2.8.2). -/
def twoLevels : LevelFrame := ⟨0, 7, 40, [30000, 12500]⟩

/-! ## Commands that cannot happen as written -/

theorem test_wf_level_empty : (Instr.levelFrameA ⟨0, 0, 0, []⟩).wellFormed = false := by decide
theorem test_wf_level_range : (Instr.levelFrameB ⟨0, 0, 383, [1, 2]⟩).wellFormed = false := by decide
theorem test_wf_level_last : (Instr.levelFrameB ⟨0, 0, 383, [1]⟩).wellFormed = true := by decide
theorem test_wf_receive_error : (Instr.receiveError .dReturnRx .format).wellFormed = false := by decide
theorem test_wf_forward_kind : (Instr.forwardFrame ⟨0x01, []⟩).wellFormed = false := by decide
theorem test_wf_forward_length : (Instr.forwardFrame ⟨0x12, List.replicate 257 0⟩).wellFormed = false := by
  decide +kernel
theorem test_wf_relay_length : (Instr.relayFrame ⟨0x77, List.replicate 775 0⟩).wellFormed = false := by decide +kernel
theorem test_wf_discarded_kind : (Instr.bFrameDiscarded ⟨0x10, []⟩).wellFormed = false := by decide
theorem test_wf_discarded_length : (Instr.bFrameDiscarded ⟨0x11, List.replicate 257 0⟩).wellFormed = false := by
  decide +kernel
theorem test_wf_not_taken_broadcast : (Instr.requestNotTaken ⟨.a, 0, 1, 0⟩ 0x01 []).wellFormed = false := by decide
theorem test_wf_not_taken_args : (Instr.requestNotTaken ⟨.a, 9, 1, 0⟩ 0x10 [1]).wellFormed = false := by decide
theorem test_wf_not_taken_length : (Instr.requestNotTaken ⟨.a, 9, 1, 0⟩ 0x01 (List.replicate 253 0)).wellFormed = false := by
  decide +kernel
theorem test_wf_bad_command_known : (Instr.badCommand atA 0x31 []).wellFormed = false := by decide
theorem test_wf_bad_command_length : (Instr.badCommand atA 0x77 (List.replicate 253 0)).wellFormed = false := by
  decide +kernel
theorem test_wf_character_start : (Instr.characterReceived .aRx 0x3FF).wellFormed = false := by decide

/-- Each request command with 253 argument bytes, one more than its payload may hold (R5). -/
theorem test_wf_request_lengths :
    ([.identify atA (List.replicate 253 0), .readStatus atA (List.replicate 253 0),
      .readChannels atA 0 1 (List.replicate 250 0), .readInputs atA 0 0 1 (List.replicate 249 0),
      .readTable atA 0 0 0 1 (List.replicate 248 0), .openSession atA 1 (List.replicate 251 0),
      .writeTable atA 1 0 0 1 (List.replicate 247 0), .commit atA 1 0 (List.replicate 247 0),
      .abortSession atA 1 (List.replicate 251 0), .force atA 0 1 0 0 (List.replicate 246 0),
      .release atA 0 1 (List.replicate 249 0), .saveScene atA 0 (List.replicate 252 0),
      .ackConditions atA 0 (List.replicate 251 0), .restart atA (List.replicate 253 0)] : List Instr).all
      (fun c => !c.wellFormed) = true := by decide +kernel

/-! ## Decoding -/

/-- R1, R8, R164: the check values of the two checksums. -/
theorem test_crc16 : crc16 [0x31, 0x32, 0x33, 0x34, 0x35, 0x36, 0x37, 0x38, 0x39] = 0x29B1 := by decide +kernel
theorem test_crc32 : crc32 [0x31, 0x32, 0x33, 0x34, 0x35, 0x36, 0x37, 0x38, 0x39] = 0xFC891918 := by decide +kernel

/-- The samples of 0xC3: start bit 0, the data bits least significant first, stop bit 1 (R1). -/
theorem test_character : goodCharacter 0xC3 = 0b1110000110#10 ∧ assemble 0b1110000110#10 = some (0xC3, true) := by decide

/-- No word of the opcode table spells a command. -/
theorem test_no_word (nbits w : Nat) : decodeTableWord nbits w = none := rfl

theorem test_decode_level :
    decodeFrame 63 .aRx ⟨0x01, [0x00, 0x07, 0x00, 0x28, 0x00, 0x02, 0x75, 0x30, 0x30, 0xD4]⟩ =
      .ok (.levelFrameA twoLevels) := by rfl
theorem test_decode_level_stream : decodeFrame 63 .bRx ⟨0x01, [0x10, 0, 0, 0, 0, 1, 0, 0]⟩ = .error .format := by rfl
theorem test_decode_opaque : decodeFrame 63 .bRx ⟨0x55, [1, 2]⟩ = .ok (.bFrameDiscarded ⟨0x55, [1, 2]⟩) := by rfl
theorem test_decode_relay : decodeFrame 63 .dReturnRx ⟨0x10, []⟩ = .ok (.relayFrame ⟨0x10, []⟩) := by rfl
theorem test_decode_length : decodeFrame 63 .aRx ⟨0x11, List.replicate 257 0⟩ = .error .length := by decide +kernel
theorem test_decode_not_taken :
    decodeFrame 63 .aRx ⟨0x10, [9, 5, 0x31, 0]⟩ = .ok (.requestNotTaken ⟨.a, 9, 5, 0⟩ 0x31 []) := by rfl
theorem test_decode_unknown :
    decodeFrame 63 .aRx ⟨0x10, [63, 5, 0x77, 1, 2]⟩ = .ok (.badCommand ⟨.a, 63, 5, 1⟩ 0x77 [2]) := by rfl
theorem test_decode_short : decodeFrame 63 .bRx ⟨0x10, [9, 5, 0x20, 0, 0, 0]⟩ = .error .format := by rfl
theorem test_decode_force :
    decodeFrame 63 .aRx ⟨0x10, [63, 5, 0x20, 0, 0x00, 0x0A, 0x00, 0x03, 0x9C, 0x40, 0xFF, 0xEE]⟩ =
      .ok (.force atA 10 3 40000 0xFF [0xEE]) := by rfl
theorem test_decode_write :
    decodeFrame 63 .bRx ⟨0x10, [0, 1, 0x11, 0, 0x12, 0x34, 0x01, 0xFF, 0xFF, 0x01, 1, 2, 3, 4, 5, 6]⟩ =
      .ok (.writeTable ⟨.b, 0, 1, 0⟩ 0x1234 1 0xFFFF 1 [1, 2, 3, 4, 5, 6]) := by rfl
theorem test_decode_commit :
    decodeFrame 63 .aRx ⟨0x10, [63, 5, 0x12, 0, 0x00, 0x51, 0x07, 0xC8, 0xBF, 0x59]⟩ =
      .ok (.commit atA 0x51 0x07C8BF59 []) := by rfl
theorem test_decode_read :
    decodeFrame 63 .aRx ⟨0x10, [63, 5, 0x05, 0, 1, 2, 0x00, 0x0F, 1]⟩ = .ok (.readTable atA 1 2 15 1 []) := by rfl

/-! ## Records -/

/-- R210: what a CONFIG entry is read into is written back byte for byte, reserved bytes included (R151). -/
theorem test_config_bytes :
    (ConfigRecord.ofBytes ((List.range 32).map (BitVec.ofNat 8))).bytes = (List.range 32).map (BitVec.ofNat 8) := by
  decide +kernel
/-- R211: rule 4, profile 9, curve 3, reserved 5, hold 1, source 1 port B slot 383, source 2 absent. -/
theorem test_map_bytes :
    MapEntry.ofBytes [0x89, 0x3B, 0x83, 0x7F, 0x00, 0x00] = ⟨4, 9, 3, 5, 1, 0x837F, 0⟩ ∧
    (⟨4, 9, 3, 5, 1, 0x837F, 0⟩ : MapEntry).bytes = [0x89, 0x3B, 0x83, 0x7F, 0x00, 0x00] ∧
    decodeSource 0x837F = some ⟨.b, 383⟩ := by decide +kernel
/-- R212. -/
theorem test_profile_bytes :
    (ProfileRecord.ofBytes ((List.range 24).map (BitVec.ofNat 8))).bytes = (List.range 24).map (BitVec.ofNat 8) ∧
    (ProfileRecord.ofBytes ((List.range 24).map (BitVec.ofNat 8))).maxRate = 0x08090A := by decide +kernel
/-- R213. -/
theorem test_curve_bytes :
    curveBytes (curveOfBytes ((List.range 34).map (BitVec.ofNat 8))) = (List.range 34).map (BitVec.ofNat 8) := by
  decide +kernel
/-- R151, R154: the default image has 32 + 6 × 384 + 24 × 16 + 34 × 8 bytes and passes verification. -/
theorem test_default_image : Bank.default.image.length = 2992 ∧ entryFailure Bank.default = none := by decide +kernel


/-! ## Worked sequences and rules, one step each -/

/-- The results of the replies in the queue, in order. -/
def results (s : State) : List Result :=
  s.queue.filterMap fun e => match e.message with
    | .reply r => some r.result
    | .notice _ _ _ => none

/-- The data of the replies in the queue, in order. -/
def replyData (s : State) : List (List Byte) :=
  s.queue.filterMap fun e => match e.message with
    | .reply r => some r.data
    | .notice _ _ _ => none

/-- The kinds and summary bytes of the notices in the queue, in order. -/
def notices (s : State) : List (Condition × Byte) :=
  s.queue.filterMap fun e => match e.message with
    | .reply _ => none
    | .notice _ k y => some (k, y)

/-- A reply to a request on a port, waiting. -/
def waitingReply (p : Port) (tag : Byte) : QueueEntry := ⟨.reply ⟨63, tag, 3, .ok, 0, []⟩, p, .waiting⟩

/-- A reply at B that is being sent. -/
def takenReply : QueueEntry := { waitingReply .b 1 with state := .sending }

/-- The part whose B-return-tx sends a reply. -/
def takingPart : State :=
  { idlePart with tx := ⟨.free, .free, .sending takenReply.message.frame 480⟩, queue := [takenReply] }

/-- A LEVEL frame of a stream with one level, for slot 12 (3.9.2). -/
def oneLevel (stream : BitVec 4) (v : Level) : LevelFrame := ⟨stream, 0, 12, [v]⟩

/-- The context of a channel at rest on level 100 of port A's default map. -/
def ctx (position rate : Nat) (d : Direction) (ph : Phase) (aim : Nat) : FadeContext := ⟨position, rate, d, ph, aim, 3⟩

/-- R179, R194: the latched set empties, PAUSE stays as its line. -/
theorem test_hard_reset :
    gives .hardReset { State.reset with latched := 0x8001, pause := true, nextSequence := 9, missed := 3 } (fun t =>
      t.inReset && t.latched == 0 && t.pause && t.nextSequence == 0 && t.missed == 0 && t.tickAt == none) = true := by
  decide +kernel
/-- R127: straps of 0 read as 63. R194: PAUSED latches at the release. R3: B's line is awaited high. -/
theorem test_reset_release :
    gives (.resetRelease 0 true false true) { State.reset with inReset := true, pause := true, node := 1 } (fun t =>
      t.node == 63 && t.latched == 0x8000 && t.rx.b.awaitHigh && t.rx.b.idleSince == none && !t.rx.a.awaitHigh) = true := by
  decide +kernel
/-- R184: PAUSED is kind 15. -/
theorem test_pause_assert :
    gives .pauseAssert State.reset (fun t => t.pause && t.latched == 0x8000) = true := by decide +kernel
/-- R184: the release of PAUSE leaves the latched kind. -/
theorem test_pause_release :
    gives .pauseRelease { State.reset with pause := true, latched := 0x8000 } (fun t => !t.pause && t.latched == 0x8000) =
      true := by decide +kernel
/-- R3, R6: 12 µs are 240 periods of 20 MHz. -/
theorem test_inter_frame_idle :
    gives (.interFrameIdle .bRx) State.reset (fun t => t.rx.b.phase == .hunting && t.now == 240 &&
      t.rx.a.phase == .settling) = true := by decide +kernel
/-- R9: 8 µs are 160 periods; FRAME_ERROR is kind 6. -/
theorem test_truncated :
    gives (.truncated .dReturnRx)
      (State.reset.setRx .dReturnRx { Rx.reset 1000 with phase := .receiving, buffer := [1] }) (fun t =>
        t.now == 1160 && t.rx.d.lastError == some .truncated && t.rx.d.buffer == [] && t.latched == 0x0040) = true := by
  decide +kernel
/-- 2.8.1 at 25 ms: a CRC error in ACQUIRING takes the count back to 0, and the loss timer runs on. -/
theorem test_receive_error :
    gives (.receiveError .aRx .crc) (State.reset.setPort .a (portIn .acquiring 1 (some 20000000) none)) (fun t =>
      t.ports.a.acquired == 0 && t.ports.a.state == .acquiring && t.ports.a.lossAt == some 20000000 &&
        t.rx.a.lastError == some .crc) = true := by decide +kernel
/-- 2.8.1 at 100 ms: the third good frame makes port A LIVE, with RESTORE_A (kind 4) and the loss expiry 1 s on. -/
theorem test_good_frame_live :
    let t := goodFrame .a { State.reset.setPort .a (portIn .acquiring 2 (some 21500000) none) with now := 2000000 }
    t.ports.a.state = .live ∧ t.ports.a.acquired = 3 ∧ t.ports.a.lossAt = some 22000000 ∧ t.latched = 0x0010 := by
  decide +kernel
/-- 6.6.2 at 1.252 ms: the fifth frame finds the forward FIFO full; FORWARD_DROP is kind 13. -/
theorem test_level_a_forward_full :
    gives (.levelFrameA ⟨5, 0, 0, [1]⟩) { State.reset with forward := List.replicate 4 ⟨0x55, []⟩ } (fun t =>
      t.forward.length == 4 && t.latched == 0x2000 && t.ports.a.state == .silent) = true := by decide +kernel
/-- 2.8.2: a partial update of port B after its release. -/
theorem test_partial_update :
    let u := ((PortUnit.reset.slots.set 39 ⟨8000, false⟩).set 40 ⟨30000, false⟩).set 41 ⟨12000, false⟩
    (writeSlots u twoLevels)[39] = ⟨8000, false⟩ ∧ (writeSlots u twoLevels)[40] = ⟨30000, true⟩ ∧
    (writeSlots u twoLevels)[41] = ⟨12500, true⟩ ∧ (writeSlots u twoLevels)[42] = ⟨0, false⟩ ∧
    inChangeSet u twoLevels 40 = true ∧ inChangeSet u twoLevels 42 = false ∧ changesValid u twoLevels 40 = false ∧
    (goodFrameUnit 0 1 3 (portIn .released 0 none none)).1.state = .acquiring ∧
    (goodFrameUnit 0 1 3 (portIn .released 0 none none)).1.acquired = 1 := by decide +kernel
/-- R19: port B knows no clash and no forwarding; a frame of the output stream is discarded there. -/
theorem test_level_b_other_stream :
    gives (.levelFrameB twoLevels) State.reset (fun t =>
      t.ports.b.state == .silent && t.latched == 0 && t.forward == []) = true := by decide +kernel
/-- 6.6.1 at 7.5 ms: an opaque frame waits behind a transmitter that sends. -/
theorem test_forward_frame :
    gives (.forwardFrame ⟨0x55, [7]⟩) State.reset (fun t => t.forward == [⟨0x55, [7]⟩]) = true := by decide +kernel
/-- R118: a full relay FIFO; RELAY_DROP is kind 14. -/
theorem test_relay_frame_full :
    gives (.relayFrame ⟨0x12, [9, 8, 0]⟩) { State.reset with relay := List.replicate 4 ⟨0x55, []⟩ } (fun t =>
      t.relay.length == 4 && t.latched == 0x4000) = true := by decide +kernel
/-- R140: a relayed frame that A-return-tx takes in FREE; the preference then names replies. -/
theorem test_relay_frame_taken :
    gives (.relayFrame ⟨0x55, [7]⟩) { idlePart with preference := .relay } (fun t =>
      t.relay == [] && t.tx.a == .sending ⟨0x55, [7]⟩ 560 && t.preference == .replies) = true := by decide +kernel
/-- R128: the whole frame of a REQUEST for node 9 goes the forward path from A. -/
theorem test_request_not_taken :
    gives (.requestNotTaken ⟨.a, 9, 5, 0⟩ 0x31 []) State.reset (fun t =>
      t.forward == [⟨0x10, [9, 5, 0x31, 0]⟩] && t.queue == []) = true := by decide +kernel
/-- R134, R203: an unknown code is BAD_COMMAND, its reserved field unlooked at. -/
theorem test_bad_command :
    gives (.badCommand { atA with reserved := 1 } 0x77 [2]) State.reset (fun t => results t == [.badCommand]) = true := by
  decide +kernel
/-- R207: vendor, part, revision, node, bank and checksum. -/
theorem test_identify :
    gives (.identify atA []) { State.reset with active := .bank1, checksum := 0x01020304 } (fun t =>
      replyData t == [[0x1D, 0x4A, 0x03, 0x84, 1, 63, 1, 1, 2, 3, 4]]) = true := by decide +kernel
/-- 11.5.3 at 40 ms: ARMED, owner A with token 0x0051, next sequence 122. -/
theorem test_read_status :
    gives (.readStatus atA []) { State.reset with session := .armed ⟨.a, 0x51⟩ 0, nextSequence := 122 } (fun t =>
      replyData t == [[0, 0, 0, 0, 0, 0, 0, 0, 0, 122, 0, 0, 0, 0, 3, 0, 0, 0x51, 0, 0, 0xFF, 0xFF, 0xFF, 0, 0, 0, 0,
        0, 0]]) = true := by decide +kernel
/-- 4.10.1 after tick 4: MOVING UP at level 13, fraction 128, rate 1152. -/
theorem test_read_channels :
    gives (.readChannels atA 5 1 [])
      { State.reset with fades := State.reset.fades.set 5 (ctx 3456 1152 .up .moving 10240) } (fun t =>
        replyData t == [[0, 5, 1, 1, 0, 0, 13, 128, 0, 0x04, 0x80, 0, 0, 2, 3]]) = true := by decide +kernel
/-- R38: a range past the last slot. -/
theorem test_read_inputs_range :
    gives (.readInputs atA 1 330 64 []) State.reset (fun t => results t == [.badArgument]) = true := by decide +kernel
/-- R206: the slots as the partial update of 2.8.2 leaves them. -/
theorem test_read_inputs :
    gives (.readInputs atA 1 40 2 []) (State.reset.setPort .b { PortUnit.reset with
        slots := (PortUnit.reset.slots.set 40 ⟨30000, true⟩).set 41 ⟨12500, false⟩ }) (fun t =>
      replyData t == [[1, 0, 40, 2, 0x75, 0x30, 1, 0x30, 0xD4, 0]]) = true := by decide +kernel
/-- 8.16.1: 380 + 8 exceeds 384, and reads do not wrap. -/
theorem test_read_table_range :
    gives (.readTable atA 1 1 380 8 []) State.reset (fun t => results t == [.badArgument]) = true := by decide +kernel
/-- 8.16.1: 376 + 8 is the end of MAP; entry 383 is ONLY from slot 383 of A (R154, R211). -/
theorem test_read_table :
    gives (.readTable atA 1 1 376 8 []) State.reset (fun t =>
      results t == [.ok] && (replyData t).map (·.drop 46) == [[0x20, 0, 0x81, 0x7F, 0, 0]]) = true := by decide +kernel
/-- 8.16.1: OPEN_SESSION starts a timer of 5 s. -/
theorem test_open_session :
    gives (.openSession atA 0x2A00 []) { State.reset with now := 7, pointer := ⟨.map, 3⟩ } (fun t =>
      results t == [.ok] && t.session == .opened ⟨.a, 0x2A00⟩ 100000007 && t.pointer == ⟨.config, 0⟩) = true := by
  decide +kernel
/-- 8.16.1: the first write is refused because the pointer names CONFIG. -/
theorem test_write_table_absent :
    gives (.writeTable atA 0x2A00 1 0xFFFF 32 (List.replicate 192 0))
      { State.reset with session := .opened ⟨.a, 0x2A00⟩ 5 } (fun t =>
        results t == [.badArgument] && t.session == .opened ⟨.a, 0x2A00⟩ 5) = true := by decide +kernel
/-- 8.16.1: 32 entries from 370 wrap to 17, and the reply's data is MAP, 18. -/
theorem test_write_table_wraps :
    gives (.writeTable atA 0x2A00 1 370 32 (List.replicate 192 0))
      { State.reset with session := .opened ⟨.a, 0x2A00⟩ 5 } (fun t =>
        results t == [.ok] && replyData t == [[1, 0, 18]] && t.pointer == ⟨.map, 18⟩ &&
          t.banks.bank1.map[17].rule == 0 && t.banks.bank1.map[18].rule == 1 && t.banks.bank1.map[369].rule == 1 &&
            t.banks.bank1.map[370].rule == 0 && t.banks.bank0.map[370].rule == 1) = true := by decide +kernel
/-- 11.5.3 at 31 ms. -/
theorem test_commit :
    gives (.commit atA 0x51 0xC1 []) { State.reset with session := .opened ⟨.a, 0x51⟩ 900 } (fun t =>
      results t == [.accepted] && t.session == .verifying ⟨.a, 0x51⟩ 0xC1 0) = true := by decide +kernel
/-- 11.5.3 at 45 ms. -/
theorem test_abort_too_late :
    gives (.abortSession atA 0x51 []) { State.reset with session := .armed ⟨.a, 0x51⟩ 0xC1 } (fun t =>
      results t == [.tooLate] && t.session == .armed ⟨.a, 0x51⟩ 0xC1) = true := by decide +kernel
/-- 3.9.3: FORCE of channel 30 at 60000 with no profile takes the map profile. -/
theorem test_force :
    gives (.force atA 30 1 60000 0xFF []) State.reset (fun t =>
      t.targets[30] == ⟨60000, 0, .park, .nobody⟩ && t.targets[31].kind == .held && t.parks[30].parked &&
        results t == [.ok]) = true := by decide +kernel
/-- 3.9.3, last row: a RELEASE into SCENE 2 under profile 5; FALLBACK is kind 8. -/
theorem test_release :
    gives (.release atA 30 1 []) { withConfig { ConfigRecord.default with fallbackScene := 2, fallbackProfile := 5 }
        State.reset with
        parks := State.reset.parks.set 30 ⟨true, 60000, none⟩
        targets := State.reset.targets.set 30 ⟨60000, 1, .park, .nobody⟩
        scenes := State.reset.scenes.set 2 (Vector.replicate 384 5000) } (fun t =>
      t.targets[30] == ⟨5000, 5, .scene, .nobody⟩ && t.latched == 0x0100) = true := by decide +kernel
/-- 5.8.1: a channel in SCENE is retargeted by the capture, one that is LIVE is not. -/
theorem test_save_scene :
    let s := { withConfig { ConfigRecord.default with fallbackScene := 1, fallbackProfile := 4 } State.reset with
        fades := (State.reset.fades.set 100 (ctx 3200100 25600 .down .moving 1280000)).set 102
          (ctx 7680000 0 .up .idle 7680000)
        targets := (State.reset.targets.set 100 ⟨5000, 4, .scene, .nobody⟩).set 102 ⟨30000, 0, .live, .nobody⟩ }
    let t := (carrySaveScene 1 s).state
    t.scenes[1][100] = 12500 ∧ t.scenes[1][102] = 30000 ∧ t.targets[100] = ⟨12500, 4, .scene, .nobody⟩ ∧
    t.targets[102] = ⟨30000, 0, .live, .nobody⟩ ∧ (carrySaveScene 4 s).result = .badArgument := by decide +kernel
/-- 9.10.1: the summary selection FALLBACK, FALLBACK, PAUSED, LOSS_B, COMMIT_FAILED with FALLBACK, LOSS_A and PAUSED
latched, before and after FALLBACK is acknowledged. -/
theorem test_ack_conditions :
    let c := { ConfigRecord.default with summaryLength := 5, summary := #v[8, 8, 15, 1, 11, 0, 0, 0] }
    (withConfig c { State.reset with latched := 0x8101 }).summaryByte = 0x07 ∧
    gives (.ackConditions atA 0x0100 []) (withConfig c { State.reset with latched := 0x8101 }) (fun t =>
      t.latched == 0x8001 && t.queue.map (·.message) == [.reply ⟨63, 5, 0x30, .ok, 0x04, []⟩]) = true := by
  decide +kernel
/-- R145, R180, R195: what a warm restart empties at the management, session and condition blocks. R17: a frame that a
transmitter took at the same instant goes on. -/
theorem test_restart_blocks :
    let t := restartManagement (restartConditions (restartSession (restartPaths { takingPart with
      queue := [takenReply, waitingReply .b 1], latched := 0x0001, missed := 4, nextSequence := 77, now := 6
      session := .armed ⟨.a, 0x51⟩ 0xC1, pointer := ⟨.map, 3⟩, relay := [⟨0x55, []⟩] })))
    t.queue = [] ∧ t.latched = 0 ∧ t.missed = 0 ∧ t.nextSequence = 77 ∧ t.relay = [] ∧ t.session = .copying 6 ∧
    t.pointer = ⟨.config, 0⟩ ∧ t.tx.b = .sending takenReply.message.frame 480 := by decide +kernel
/-- R183, R195: FALLBACK (kind 8) and PAUSED (kind 15) latch at a RESTART, each in the summary selection. As a broadcast each
is offered its notice at its latching; addressed, both offers follow the reply. -/
theorem test_restart_notices :
    let s : State := withConfig { ConfigRecord.default with
        noticeMask := 0x8100, fallbackScene := 0, summaryLength := 2, summary := #v[8, 15, 0, 0, 0, 0, 0, 0] }
      { State.reset with pause := true, targets := Vector.replicate 384 ⟨40000, 0, .live, .nobody⟩ }
    gives (.restart ⟨.b, 0, 5, 0⟩ []) s (fun t => notices t == [(.fallback, 0x01), (.paused, 0x03)]) = true ∧
    gives (.restart atA []) s (fun t => notices t == [(.fallback, 0x03), (.paused, 0x03)]) = true := by decide +kernel
/-- 4.10.1, tick 1. -/
theorem test_fade_tick :
    gives .fadeTick { State.reset with
        banks := ⟨{ Bank.default with profiles := Bank.default.profiles.set 3 ramp3 }, .default⟩
        targets := State.reset.targets.set 5 ⟨40, 3, .live, .nobody⟩ } (fun t =>
      t.fades[5] == ctx 512 512 .up .moving 10240 && t.fades[4] == FadeContext.reset && t.tickAt == some 40000 &&
        t.now == 20000) = true := by decide +kernel
/-- R69: a tick under PAUSE moves nothing. -/
theorem test_fade_tick_paused :
    gives .fadeTick { State.reset with pause := true, targets := State.reset.targets.set 5 ⟨40, 0, .live, .nobody⟩ } (fun t =>
      t.fades[5] == FadeContext.reset && t.tickAt == some 40000) = true := by decide +kernel
/-- 4.10.1, ticks 8 and 10. -/
theorem test_ramp_decelerates :
    profileStep ramp3 (ctx 7680 1536 .up .moving 10240) = ctx 8960 1280 .up .moving 10240 ∧
    profileStep ramp3 (ctx 9984 1024 .up .moving 10240) = ctx 10240 0 .up .idle 10240 := by decide +kernel
/-- 4.10.2, ticks 7 and 15. -/
theorem test_ramp_reverses :
    profileStep ramp3 (ctx 6144 1408 .up .moving 2560) = ctx 7296 1152 .up .reversing 2560 ∧
    profileStep ramp3 (ctx 10880 128 .up .reversing 2560) = ctx 10880 256 .down .moving 2560 := by decide +kernel
/-- 11.5.2, ticks 1 and 2. -/
theorem test_ramp_top :
    profileStep ramp7 (ctx 16767920 40960 .up .moving 8388608) = ctx 16777215 4096 .down .moving 8388608 ∧
    profileStep ramp7 (ctx 16777215 4096 .down .moving 8388608) = ctx 16769023 8192 .down .moving 8388608 := by
  decide +kernel
/-- 11.5.4: the last two of the 118 ticks. -/
theorem test_slew :
    profileStep slew2 (ctx 5197824 65536 .down .moving 5120000) = ctx 5132288 65536 .down .moving 5120000 ∧
    profileStep slew2 (ctx 5132288 65536 .down .moving 5120000) = ctx 5120000 0 .down .idle 5120000 := by
  decide +kernel
/-- 3.9.1. -/
theorem test_curve :
    let y : CurveRecord := #v[0, 2000, 9000, 0, 0, 40000, 30000, 0, 0, 0, 0, 0, 0, 0, 0, 0, 0]
    curveOutput y 4096 = 2000 ∧ curveOutput y 5000 = 3544 ∧ curveOutput y 22000 = 36290 := by decide +kernel
/-- R52: the output of the default points is the input up to 61440, then 1 less, and 65534 at the top. -/
theorem test_curve_default :
    curveOutput defaultCurve 12345 = 12345 ∧ curveOutput defaultCurve 61440 = 61440 ∧
    curveOutput defaultCurve 61441 = 61440 ∧ curveOutput defaultCurve 65535 = 65534 := by decide +kernel
/-- 3.9.2: the owner moves with a frame on B that changes a valid slot, and not with one on A that repeats its level. -/
theorem test_latest_owner :
    let e : MapEntry := ⟨4, 0, 0, 0, 0, 0x800C, 0x820C⟩
    let slots := PortUnit.reset.slots.set 12 ⟨20000, true⟩
    moveOwner .b (changesValid slots (oneLevel 1 25000)) e ⟨20000, 0, .live, .nobody⟩ = ⟨20000, 0, .live, .source2⟩ ∧
    moveOwner .a (changesValid slots (oneLevel 0 20000)) e ⟨20000, 0, .live, .nobody⟩ = ⟨20000, 0, .live, .nobody⟩ := by
  decide +kernel
/-- 3.9.2, last row but two and last row: the other source while the owner's port is ACQUIRING, the owner's when LIVE. -/
theorem test_latest_merge :
    let a (st : PortState) : PortUnit :=
      { portIn st 2 (some 9) none with slots := PortUnit.reset.slots.set 12 ⟨18000, true⟩ }
    let b : PortUnit := { portIn .live 3 (some 9) none with slots := PortUnit.reset.slots.set 12 ⟨25000, true⟩ }
    mergedValue ⟨a .acquiring, b⟩ ⟨4, 0, 0, 0, 0, 0x800C, 0x820C⟩ .source1 = some 25000 ∧
    mergedValue ⟨a .live, b⟩ ⟨4, 0, 0, 0, 0, 0x800C, 0x820C⟩ .source1 = some 18000 := by decide +kernel
/-- 6.6.1 at 3 ms: a missed refresh. -/
theorem test_refresh_missed :
    gives .refreshExpiry { State.reset with output := .sending ⟨1, []⟩, nextSequence := 41 } (fun t =>
      t.missed == 1 && t.nextSequence == 41 && t.refreshAt == some 1000000) = true := by decide +kernel
/-- 11.5.3 at 50 ms: the last frame of the old program, then the changeover; COMMIT_DONE (kind 10) is noticed under the
new mask with summary 0x20, and the next interval is 20 ms. -/
theorem test_refresh_changeover :
    gives .refreshExpiry { idlePart with
        banks := ⟨.default, { Bank.default with config :=
          { ConfigRecord.default with refreshPeriod := 20, outputLength := 200, noticeMask := 0x0C00 } }⟩
        session := .armed ⟨.a, 0x51⟩ 0xC1
        nextSequence := 122
        tickAt := some 1000001
        refreshAt := some 1000000 } (fun t =>
      t.active == .bank1 && t.checksum == 0xC1 && t.outcome == .done && t.session == .copying 1000000 &&
        t.nextSequence == 123 && t.refreshAt == some 1400000 && notices t == [(.commitDone, 0x20)] &&
          (match t.output with
            | .sending f => f.payload.length == 774 && f.payload[1]? == some 122
            | _ => false)) = true := by decide +kernel
/-- 9.10.2: LOSS_A and RELEASE_A latch in that order and go pending behind 8 replies; ALERT goes low. -/
theorem test_latch_behind_full_queue :
    let t := latch (.releaseOf .a) (latch (.loss .a) { withConfig { ConfigRecord.default with
        noticeMask := 0x1005, alertMask := 0x0001 } State.reset with
      queue := (List.range 8).map fun i => waitingReply .b (BitVec.ofNat 8 (i + 1)) })
    t.latched = 0x0005 ∧ t.pendingNotices = 0x0005 ∧ t.alert = true ∧ t.queue.length = 8 := by decide +kernel
/-- 11.5.4: 50 units of loss time are 500 ms and 20 of hold time 2 s. -/
theorem test_port_times :
    let s := withConfig { ConfigRecord.default with lossTime := ⟨50, 1⟩, holdTime := ⟨20, 1⟩ } State.reset
    s.lossClocks .a = 10000000 ∧ s.holdClocks .a = 40000000 := by decide +kernel
/-- 11.5.4 at 3500 ms: every channel but the one with hold-on-loss enters SCENE at one event. -/
theorem test_hold_expiry :
    gives (.holdExpiry .a) { State.reset.setPort .a (portIn .holding 3 none (some 70000000)) with
        banks := ⟨{ Bank.default with
          config := { ConfigRecord.default with fallbackScene := 1, fallbackProfile := 2 }
          map := Bank.default.map.set 11 { MapEntry.default 11 with hold := 1 } }, .default⟩
        scenes := State.reset.scenes.set 1 (Vector.replicate 384 20000)
        targets := Vector.replicate 384 ⟨40000, 0, .live, .nobody⟩ } (fun t =>
      t.fallbackCount == 383 && t.targets[10] == ⟨20000, 2, .scene, .nobody⟩ &&
        t.targets[11] == ⟨40000, 0, .held, .nobody⟩ && t.latched == 0x0104 && t.ports.a.acquired == 0) = true := by
  decide +kernel
/-- R162: SESSION_EXPIRED is kind 9. -/
theorem test_session_expiry :
    gives .sessionExpiry { State.reset with session := .opened ⟨.b, 7⟩ 100 } (fun t =>
      t.session == .copying 100 && t.latched == 0x0200) = true := by decide +kernel
/-- 8.16.2: FAILED, SOURCES, MAP, 100; COMMIT_FAILED is kind 11 and a 5 s timer starts. -/
theorem test_verification_fails :
    gives .verificationComplete { State.reset with
        session := .verifying ⟨.a, 0x2A00⟩ 0xC1 100
        banks := ⟨.default, { Bank.default with
          map := Bank.default.map.set 100 ⟨2, 0, 0, 0, 0, 0x8000, 0⟩
          profiles := Bank.default.profiles.set 3 { ramp3 with floorRate := 0 } }⟩ } (fun t =>
      t.outcome == .failed ⟨.sources, some ⟨.map, 100⟩⟩ && t.latched == 0x0800 &&
        t.session == .opened ⟨.a, 0x2A00⟩ 100000101) = true := by decide +kernel
/-- R154, R165: the default set passes verification under the checksum of its own image. -/
theorem test_verification_arms : verify Bank.default (crc32 Bank.default.image) = none := by
  unfold verify
  rw [test_default_image.2]
  exact if_pos rfl
/-- R166 to R168: the bounds of an output length, of a slot and of a start rate. -/
theorem test_check_bounds :
    checkConfig { ConfigRecord.default with outputLength := 384, fallbackScene := 3 } = none ∧
    checkConfig { ConfigRecord.default with outputLength := 385, fallbackScene := 4 } = some .outputLength ∧
    checkMap ⟨1, 0, 0, 0, 0, 0x837F, 0⟩ = none ∧ checkMap ⟨1, 0, 9, 0, 0, 0x8380, 0⟩ = some .source ∧
    checkProfile { ramp3 with startRate := 2048 } = none ∧ checkProfile { ramp3 with startRate := 2049 } = some .startRate := by
  decide +kernel
/-- R174. -/
theorem test_copy_complete :
    gives .copyComplete { State.reset with
        session := .copying 100
        active := .bank1
        banks := ⟨{ Bank.default with profiles := Bank.default.profiles.set 3 ramp3 }, .default⟩ } (fun t =>
      t.session == .noSession && t.banks.bank0.profiles[3] == .default && t.active == .bank1) = true := by decide +kernel
/-- 11.5.5 at 1840 µs: R1 leaves, and LOSS_B, the lowest pending kind, moves in with summary 0x82. -/
theorem test_transmit_complete :
    gives (.transmitComplete .aReturnTx) { State.reset with
        queue := [{ waitingReply .a 1 with state := .sending }, waitingReply .a 2]
        tx := ⟨.free, .sending ⟨0x11, []⟩ 36800, .free⟩
        latched := 0x1002
        pendingNotices := 0x1002 } (fun t =>
      notices t == [(.lossB, 0x82)] && t.queue.length == 2 && t.pendingNotices == 0x1000 &&
        t.tx.a == .gap (some 37040)) = true := by decide +kernel
/-- R1, R15: an empty REPLY frame begins with the sync byte 0xC3: start bit, data bits 1, 1, 0, 0, 0, 0, 1, 1, stop bit,
then the next start bit; before the last stop bit ends the line is that bit, and in the gap it is high. -/
theorem test_output_line :
    let s (now : Nat) : State := { State.reset with now := now, tx := ⟨.free, .sending ⟨0x11, []⟩ 480, .gap (some 9)⟩ }
    ([0, 8, 16, 24, 56, 71, 72, 80].map fun n => (s n).outputLine .aReturnTx) =
      [false, true, true, false, true, true, true, false] ∧
    (s 479).outputLine .aReturnTx = true ∧ (s 0).outputLine .bReturnTx = true := by decide +kernel
/-- 11.5.5 at 1852 µs: with preference RELAY the relayed frame goes, at 2912 µs the next reply. -/
theorem test_gap_end_alternates :
    gives (.gapEnd .aReturnTx) { State.reset with
        now := 37040
        queue := [waitingReply .a 2]
        relay := [⟨0x55, [1, 2]⟩]
        preference := .relay
        tx := ⟨.free, .gap (some 37040), .free⟩ } (fun t =>
      t.relay == [] && t.preference == .replies && t.tx.a == .sending ⟨0x55, [1, 2]⟩ 37680 &&
        t.queue == [waitingReply .a 2]) = true := by decide +kernel
/-- 6.6.1 at 8.932 ms: the output frame goes before the head of the forward FIFO. -/
theorem test_gap_end_output :
    gives (.gapEnd .dTx) { State.reset with output := .waiting ⟨1, [41]⟩, forward := [⟨0x55, []⟩] } (fun t =>
      t.output == .sending ⟨1, [41]⟩ && t.forward == [⟨0x55, []⟩]) = true := by decide +kernel
/-- R2, R3, R6: only a good 0xC3 starts a frame; its stop-bit sample is nine and a half bit times after its leading edge,
where the idle measurement starts. -/
theorem test_character_sync :
    let s := State.reset.setRx .aRx { Rx.reset 0 with phase := .hunting }
    gives (.characterReceived .aRx (goodCharacter 0xC3)) s (fun t =>
      t.rx.a.phase == .receiving && t.now == 76 && t.rx.a.idleSince == some 76) = true ∧
    gives (.characterReceived .aRx (goodCharacter 0xC2)) s (fun t => t.rx.a.phase == .settling) = true := by
  decide +kernel
/-- R3, R6, R9: an idle of 12 µs before the leading edge lets a 0xC3 start a frame from SETTLING, one clock less does not;
an idle above 8 µs before it truncates a frame, one of 8 µs does not. -/
theorem test_idle_before_character :
    let c : Instr := .characterReceived .aRx (goodCharacter 0xC3)
    let s (ph : RxPhase) (now : Nat) : State := { State.reset.setRx .aRx { Rx.reset 0 with phase := ph } with now := now }
    gives c (s .settling 316) (fun t => t.rx.a.phase == .receiving) = true ∧
    gives c (s .settling 315) (fun t => t.rx.a.phase == .settling && t.rx.a.idleSince == some 315) = true ∧
    gives c (s .receiving 237) (fun t => t.rx.a.lastError == some .truncated && t.rx.a.phase == .settling) = true ∧
    gives c (s .receiving 236) (fun t => t.rx.a.buffer == [0xC3] && t.latched == 0) = true := by decide +kernel
/-- R4 to R8: an empty REPLY frame, character by character, goes to the forward path. -/
theorem test_characters :
    (match receiveAll .aRx (frameCharacters ⟨0x11, []⟩) (State.reset.setRx .aRx { Rx.reset 0 with phase := .hunting }) with
      | .next t => t.forward == [⟨0x11, []⟩]
      | _ => false) = true := by decide +kernel
/-- R2, R3: after a bad character the idle is measured from the line's return high. -/
theorem test_line_return_high :
    gives (.lineReturnHigh .aRx) { State.reset.setRx .aRx (Rx.reset 0).waitHigh with now := 500 } (fun t =>
      t.rx.a.idleSince == some 500 && !t.rx.a.awaitHigh) = true := by decide +kernel
/-- R13: B discards a NOTICE frame without a condition. -/
theorem test_b_frame_discarded :
    gives (.bFrameDiscarded ⟨0x12, [9, 8, 0]⟩) { State.reset with now := 900 } (fun t =>
      t.rx.b.idleSince == some 900 && t.forward == [] && t.latched == 0) = true := by decide +kernel
/-- R132: a replay is answered with the stored reply and a fresh summary byte, and not executed. -/
theorem test_replay :
    gives (.pauseAssert) State.reset (fun u => gives (.force atA 0 1 9 0xFF [])
      { u with replay := ⟨some ⟨5, 0x20, ⟨63, 5, 0x20, .ok, 0, []⟩⟩, none⟩ } (fun t =>
        t.queue.map (·.message) == [.reply ⟨63, 5, 0x20, .ok, 0, []⟩] && !t.parks[0].parked)) = true := by decide +kernel
/-- R129: a broadcast FORCE from A is carried out, not answered, and forwarded. -/
theorem test_broadcast :
    gives (.force { atA with destination := 0 } 0 1 9 0xFF []) State.reset (fun t =>
      t.parks[0].parked && t.queue == [] && t.forward == [⟨0x10, [0, 5, 0x20, 0, 0, 0, 0, 1, 0, 9, 0xFF]⟩]) = true := by
  decide +kernel
/-- The step runs the front command, and with none waiting the clock advances. -/
theorem test_step :
    (match step { State.reset with pending := [.pauseAssert, .pauseRelease] } with
      | .next t => t.pause && t.pending == [.pauseRelease]
      | _ => false) = true ∧
    (match step State.reset with
      | .next t => t.now == 1 && t.pending == []
      | _ => false) = true := by decide +kernel


/-! ## Witnesses: for each statement with hypotheses, states and operands that meet them -/

/-- The part while RESET is asserted. -/
def heldPart : State := heldInReset State.reset

/-- The part with a receiver of A in a phase, its idle measured from 1000. -/
def rxIn (ph : RxPhase) : State := State.reset.setRx .aRx { Rx.reset 1000 with phase := ph }

/-- The part with a session. -/
def withSession (x : Session) : State := { State.reset with session := x }

/-- A session's owner at A. -/
def ownerA : SessionOwner := ⟨.a, 0x51⟩

/-- A REPLY frame with no payload. -/
def emptyReply : Frame := ⟨0x11, []⟩

/-- The part with a full reply queue. -/
def fullQueue : State := { State.reset with queue := List.replicate 8 (waitingReply .b 1) }

/-- A replay record for FORCE under tag 5. -/
def forceRecord : ReplayRecord := ⟨5, 0x20, ⟨63, 5, 0x20, .ok, 0, []⟩⟩

/-- A request at A is executed by a part in its node 63 with nothing queued or recorded. -/
theorem executes_atA {code : Byte} {args : List Byte} {s : State} (hr : s.inReset = false) (hn : s.node = 63)
    (hp : s.replay.a = none) (hq : s.queue = []) (hl : args.length + 4 ≤ 256) : Executes atA code args s := by
  refine ⟨hr, hn.symm, ?_, ?_, hl⟩
  · intro r h; exact absurd (hp.symm.trans h) nofun
  · rw [hq]; decide

/-- After reset every target record is what a resolution gives: HELD at level 0 (R62, R154). -/
theorem restingTarget (c : Fin Config.channels) :
    resolveTarget State.reset c State.reset.targets[c] = State.reset.targets[c] := by
  have hc : ∀ src, contribution State.reset.ports src = none := by
    rintro (_ | ⟨p, i⟩)
    · rfl
    · cases p <;> rfl
  have hl : State.reset.liveLevel c .nobody = none := by
    simp only [State.liveLevel, mergedValue, hc]
    cases (State.reset.activeBank.map[c]).mergeRule <;> rfl
  have hm : State.reset.mapProfile c = 0 := by
    have : State.reset.activeBank.map[c] = MapEntry.default c.val := Table.getElem_mapFin _ _ c.val c.isLt
    rw [State.mapProfile, this]; rfl
  have hf : State.reset.fallbackLevel c = none := by
    simp [State.fallbackLevel, State.config, State.activeBank, State.reset, Banks.get, Bank.default,
      ConfigRecord.default, ConfigRecord.fallback]
  have ht : State.reset.targets[c] = TargetRecord.reset := Vector.getElem_replicate c.isLt
  have hp : State.reset.parks[c] = ParkRecord.reset := Vector.getElem_replicate c.isLt
  rw [resolveTarget, hm, hf, ht, hp, show TargetRecord.reset.owner = .nobody from rfl, hl]
  rfl

theorem witness_StepRunsFrontCommand : ∃ (s : State) (c : Instr) (rest : List Instr), s.pending = c :: rest :=
  ⟨{ State.reset with pending := [.fadeTick] }, .fadeTick, [], rfl⟩

theorem witness_StepWithNothingWaiting :
    (State.reset.pending = [] ∧ dueEvents State.reset = []) ∧
    (idlePart.pending = [] ∧ dueEvents { idlePart with now := 20000 } = [.fadeTick]) ∧
    2 ≤ (dueEvents { State.reset with now := 240 }).length := by decide +kernel

theorem witness_EventsThatCannotOccurChangeNothing :
    (heldPart.inReset = true ∧ Instr.fadeTick ≠ .hardReset ∧ Instr.fadeTick ≠ .pauseAssert) ∧
    State.reset.inReset = false ∧ { State.reset with pause := true }.pause = true ∧ heldPart.tickAt = none ∧
    heldPart.refreshAt = none ∧ State.reset.ports.a.lossAt = none ∧ State.reset.ports.b.holdAt = none ∧
    State.reset.session = .noSession ∧ idlePart.tx = ⟨.free, .free, .free⟩ ∧
    (rxIn .hunting).rx.a.phase ≠ .settling ∧ (State.reset.rx.get .bRx).awaitHigh = false := by decide +kernel

/-- RESET asserted, with PAUSE released and asserted, from a state with a full alert and notice mask in force. -/
theorem witness_ResetReleaseStartsThePart :
    (heldPart.inReset = true ∧ heldPart.DefaultsUnderReset ∧ heldPart.pause = false) ∧
    let s := heldInReset (withConfig { ConfigRecord.default with alertMask := 0xFFFF, noticeMask := 0xFFFF }
      { State.reset with pause := true })
    s.inReset = true ∧ s.DefaultsUnderReset ∧ s.pause = true ∧ s.alert = false :=
  ⟨⟨rfl, fun _ => ⟨rfl, rfl⟩, rfl⟩, rfl, fun _ => ⟨rfl, rfl⟩, rfl, rfl⟩

theorem witness_NodeAddressIsReadAtRelease :
    heldPart.inReset = true ∧ exec (.resetRelease 9 true true true) State.reset = .next State.reset ∧
    State.reset.inReset = false ∧ ∃ t, exec .fadeTick heldPart = .next t := ⟨rfl, rfl, rfl, _, rfl⟩

theorem witness_PauseFollowsItsLine :
    State.reset.inReset = false ∧ State.reset.pause = false ∧ heldPart.inReset = true := ⟨rfl, rfl, rfl⟩

theorem witness_ReceiversWaitForAFrame :
    State.reset.inReset = false ∧ (State.reset.rx.get .dReturnRx).phase = .settling ∧
    (State.reset.rx.get .dReturnRx).idleSince = some 0 ∧ (State.reset.rx.get .aRx).awaitHigh = false ∧
    ((State.reset.setRx .aRx (Rx.reset 0).waitHigh).rx.get .aRx).awaitHigh = true ∧
    ((rxIn .hunting).rx.get .aRx).phase = .hunting ∧ ((rxIn .receiving).rx.get .aRx).phase = .receiving ∧
    (1#10).getLsbD 0 = true ∧ (goodCharacter 0xC3).getLsbD 0 = false ∧ (goodCharacter 0xC3).getLsbD 9 = true ∧
    (0#10).getLsbD 0 = false ∧ (0#10).getLsbD 9 = false ∧
    (rxIn .settling).rx.a.idleSince = some 1000 ∧
    (∀ now ∈ [1315, 1316], max now ((rxIn .settling).rx.a.edgeFrom + 76) = now) ∧
    1000 + 240 + 76 ≤ 1316 ∧ 1315 < 1000 + 240 + 76 ∧
    (∀ now ∈ [1236, 1237], max now ((rxIn .receiving).rx.a.edgeFrom + 76) = now) ∧
    1000 + 160 + 76 < 1237 ∧ 1236 ≤ 1000 + 160 + 76 := by decide +kernel

theorem witness_ReceiveErrorsDiscardTheFrame :
    (State.reset.inReset = false ∧ ¬ (Receiver.aRx = .dReturnRx ∧ DetectedError.format = .format) ∧
      ∀ e ∈ [DetectedError.character, .length, .crc], ¬ (Receiver.dReturnRx = .dReturnRx ∧ e = .format)) ∧
    (rxIn .receiving).inReset = false ∧ ((rxIn .receiving).rx.get .aRx).phase = .receiving ∧
    ((rxIn .receiving).rx.get .aRx).idleSince = some 1000 := by decide +kernel

/-- Both outcomes of `decodeFrame`, at the largest and the smallest payload. -/
theorem witness_CharactersMakeTheFrame :
    (rxIn .hunting).inReset = false ∧ ((rxIn .hunting).rx.get .aRx).phase = .hunting ∧
    ((rxIn .hunting).rx.get .aRx).awaitHigh = false ∧ emptyReply.lengthOk = true ∧
    (⟨0x55, List.replicate 774 0⟩ : Frame).lengthOk = true ∧
    (decodeFrame 63 .aRx ⟨0x01, []⟩).toOption = none ∧
    (decodeFrame 63 .aRx ⟨0x55, List.replicate 774 0⟩).toOption.isSome = true ∧
    (0 : Crc16) ≠ crc16 (emptyReply.kind :: bytes16 (BitVec.ofNat 16 emptyReply.payload.length) ++ emptyReply.payload) ∧
    maxPayload 0x10 < (257 : BitVec 16).toNat ∧ maxPayload 0x55 < (775 : BitVec 16).toNat := by decide +kernel

theorem witness_DecodingAgreesWithEncoding :
    requestParts (.restart atA []) = some (atA, 0x31, []) ∧
    requestParts (.requestNotTaken ⟨.a, 9, 5, 0⟩ 0x31 []) = some (⟨.a, 9, 5, 0⟩, 0x31, []) ∧
    decodeFrame 63 .aRx ⟨0x01, []⟩ = .error .format ∧ decodeFrame 63 .aRx ⟨0x11, List.replicate 257 0⟩ = .error .length ∧
    frameAsGiven (.relayFrame emptyReply) = some (.dReturnRx, emptyReply) := ⟨rfl, rfl, rfl, test_decode_length, rfl⟩

theorem witness_FramesForTheForwardPath :
    State.reset.inReset = false ∧ (Instr.forwardFrame emptyReply).wellFormed = true ∧
    (Instr.requestNotTaken ⟨.a, 9, 5, 0⟩ 0x31 []).wellFormed = true ∧ (9 : Byte) ≠ State.reset.node ∧
    (⟨5, 0, 383, [1]⟩ : LevelFrame).wellFormed = true ∧ (5 : BitVec 4).setWidth 8 ≠ State.reset.config.accepted.a ∧
    (5 : BitVec 4).setWidth 8 ≠ State.reset.config.outputStream := by decide +kernel

/-- Both sides of the capacities and of a transmitter in FREE, for the two paths. -/
theorem witness_Forwarded :
    State.reset.config.forwardEnable = 1 ∧ State.reset.forward.length < 4 ∧ State.reset.tx.d ≠ .free ∧
    idlePart.forward = [] ∧ idlePart.tx.d = .free ∧ idlePart.output = .empty ∧
    4 ≤ { State.reset with forward := List.replicate 4 emptyReply }.forward.length ∧
    (withConfig { ConfigRecord.default with forwardEnable := 0 } State.reset).config.forwardEnable ≠ 1 := by
  decide +kernel

theorem witness_FramesForTheRelayPath :
    State.reset.inReset = false ∧ emptyReply.lengthOk = true ∧
    4 ≤ { State.reset with relay := List.replicate 4 emptyReply }.relay.length ∧
    { State.reset with relay := List.replicate 3 emptyReply }.relay.length < 4 ∧ State.reset.tx.a ≠ .free ∧
    idlePart.relay = [] ∧ idlePart.tx.a = .free ∧ idlePart.queue.countP (·.waitsFor .a) = 0 := by decide +kernel

theorem witness_FramesDiscardedAtThePorts :
    State.reset.inReset = false ∧ (Instr.bFrameDiscarded emptyReply).wellFormed = true ∧
    (Instr.requestNotTaken ⟨.b, 9, 5, 0⟩ 0x31 []).wellFormed = true ∧ (9 : Byte) ≠ State.reset.node ∧
    twoLevels.wellFormed = true ∧ twoLevels.stream.setWidth 8 ≠ State.reset.config.accepted.b ∧
    (let s := withConfig { ConfigRecord.default with outputStream := 5 } State.reset
     (5 : BitVec 4).setWidth 8 ≠ s.config.accepted.a ∧ (5 : BitVec 4).setWidth 8 = s.config.outputStream) := by
  decide +kernel

/-- The part sending on all three lines: an output frame, the second entry of the queue, and a relayed frame. -/
def sendingPart : State :=
  { State.reset with
    output := .sending ⟨1, []⟩
    tx := ⟨.sending ⟨1, []⟩ 480, .sending ⟨0x55, []⟩ 480, .sending emptyReply 480⟩
    queue := [waitingReply .a 1, { waitingReply .b 2 with state := .sending }]
    latched := 0x8002
    pendingNotices := 0x8002 }

theorem witness_TransmissionsComplete :
    sendingPart.inReset = false ∧ sendingPart.tx.d = .sending ⟨1, []⟩ 480 ∧
    sendingPart.tx.get (returnTx .a) = .sending ⟨0x55, []⟩ 480 ∧ sendingPart.queue.countP (·.sendsOn .a) = 0 ∧
    sendingPart.tx.get (returnTx .b) = .sending emptyReply 480 ∧
    sendingPart.queue = [waitingReply .a 1] ++ { waitingReply .b 2 with state := .sending } :: [] ∧
    ({ waitingReply .b 2 with state := .sending } : QueueEntry).sendsOn .b = true ∧
    [waitingReply .a 1].countP (·.sendsOn .b) = 0 ∧ hasKind sendingPart.pendingNotices .lossB = true ∧
    hasKind sendingPart.pendingNotices .lossA = false := by decide +kernel

theorem witness_GapEndTakesTheNextFrame :
    sendingPart.tx.get .bReturnTx = .sending emptyReply 480 ∧ [0xC3, emptyReply.kind][0]? = some (0xC3 : Byte) ∧
    sendingPart.now + (emptyReply.payload.length + 6) * 80 = 480 + 80 * 0 + 8 * 0 + 0 ∧
    State.reset.inReset = false ∧ State.reset.tx = ⟨.gap (some 240), .gap (some 240), .gap (some 240)⟩ ∧
    { State.reset with output := .waiting emptyReply }.output = .waiting emptyReply ∧
    { State.reset with forward := [emptyReply] }.forward = emptyReply :: [] ∧ State.reset.output = .empty ∧
    State.reset.forward = [] ∧ (waitingReply .a 1).waitsFor .a = true ∧ (waitingReply .b 1).waitsFor .b = true ∧
    [waitingReply .b 1].countP (·.waitsFor .a) = 0 ∧ State.reset.relay = [] ∧ State.reset.preference = .replies ∧
    { State.reset with relay := [emptyReply], preference := .relay }.preference = .relay := by decide +kernel

/-- A LEVEL frame of the accepted stream at a port in each state, with the acquire counts 1 and 3. -/
theorem witness_AcceptedFramesAreTaken :
    State.reset.inReset = false ∧ twoLevels.wellFormed = true ∧
    twoLevels.stream.setWidth 8 = State.reset.config.accepted.get .a ∧
    ({ twoLevels with stream := 1 } : LevelFrame).stream.setWidth 8 = State.reset.config.accepted.get .b ∧
    (State.reset.ports.get .a).state = .silent ∧
    ((State.reset.setPort .a (portIn .acquiring 2 (some 9) none)).ports.get .a).state = .acquiring ∧
    ((State.reset.setPort .a (portIn .live 3 (some 9) none)).ports.get .a).state = .live ∧
    ((State.reset.setPort .a (portIn .holding 3 none (some 9))).ports.get .a).state = .holding ∧
    (withConfig { ConfigRecord.default with acquireCount := 1 } State.reset).config.acquireCount.toNat = 1 := by
  decide +kernel

theorem witness_LatestOwnerMoves :
    State.reset.inReset = false ∧ twoLevels.wellFormed = true ∧
    twoLevels.stream.setWidth 8 = State.reset.config.accepted.get .a ∧
    (∃ t, exec (levelCommand .a twoLevels) State.reset = .next t) ∧
    (⟨4, 0, 0, 0, 0, 0x8028, 0x8229⟩ : MapEntry).rule = 4 ∧
    MovesSource .a twoLevels (State.reset.setPort .a { PortUnit.reset with slots := PortUnit.reset.slots.set 40 ⟨1, true⟩ })
      (⟨4, 0, 0, 0, 0, 0x8028, 0x8229⟩ : MapEntry).sources.1 ∧
    ¬ MovesSource .a twoLevels State.reset (⟨4, 0, 0, 0, 0, 0x8028, 0x8229⟩ : MapEntry).sources.2 := by
  refine ⟨rfl, rfl, rfl, ⟨_, rfl⟩, rfl, ⟨40, 30000, by decide +kernel⟩, ?_⟩
  rintro ⟨i, v, h, -⟩
  exact absurd h (by rw [show (⟨4, 0, 0, 0, 0, 0x8028, 0x8229⟩ : MapEntry).sources.2 = some ⟨.b, 41⟩ by decide +kernel]; simp)

theorem witness_LossAndHoldExpiries :
    State.reset.inReset = false ∧
    ((State.reset.setPort .a (portIn .acquiring 2 (some 9) none)).ports.get .a).lossAt = some 9 ∧
    ((State.reset.setPort .b (portIn .live 3 (some 9) none)).ports.get .b).state = .live ∧
    State.reset.config.holdTime.get .b ≠ 0 ∧
    (withConfig { ConfigRecord.default with holdTime := ⟨0, 30⟩ } State.reset).config.holdTime.get .a = 0 ∧
    ((State.reset.setPort .a (portIn .holding 3 none (some 9))).ports.get .a).holdAt = some 9 ∧
    ((State.reset.setPort .a (portIn .holding 3 none (some 9))).ports.get .a).state = .holding := by decide +kernel

theorem witness_CurveOutputIsInterpolated :
    (65535 : Level).toNat = 4096 * (15 : Fin 16).val + 4095 ∧ (0 : Level).toNat = 4096 * (0 : Fin 16).val + 0 := by
  decide

/-- An entry of each merge rule, and each step of resolution; the last slot of B, an absent source, and the last curve and
scene. -/
theorem witness_ResolutionTakesTheFirstStep :
    (⟨4, 0, 8, 0, 0, 0x837F, 0x7FFF⟩ : MapEntry).source1.toNat = 32768 + 512 * (if Port.b = .a then 0 else 1) + 383 ∧
    (⟨4, 0, 8, 0, 0, 0x837F, 0x7FFF⟩ : MapEntry).source2.toNat < 32768 ∧
    (⟨4, 0, 8, 0, 0, 0x837F, 0x7FFF⟩ : MapEntry).curve.toNat = (7 : Fin 8).val + 1 ∧ (MapEntry.default 0).curve = 0 ∧
    { ConfigRecord.default with fallbackScene := 3 }.fallbackScene.toNat = (3 : Fin 4).val ∧
    ConfigRecord.default.fallbackScene = 0xFF ∧
    (⟨0, 0, 0, 0, 0, 0, 0⟩ : MapEntry).rule = 0 ∧ (MapEntry.default 0).rule = 1 ∧
    (⟨2, 0, 0, 0, 0, 0x8000, 0x8200⟩ : MapEntry).rule = 2 ∧ (⟨3, 0, 0, 0, 0, 0x8000, 0x8200⟩ : MapEntry).rule = 3 ∧
    (⟨4, 0, 0, 0, 0, 0x8000, 0x8200⟩ : MapEntry).rule = 4 ∧ MergeOwner.nobody ≠ .source2 ∧
    { State.reset with parks := State.reset.parks.set 0 ⟨true, 9, none⟩ }.parks[(0 : Fin 384)].parked = true ∧
    State.reset.parks[(0 : Fin 384)].parked = false ∧
    mergedValue State.reset.ports State.reset.activeBank.map[(0 : Fin 384)] .nobody = none ∧
    mergedValue (⟨{ portIn .live 3 (some 9) none with slots := PortUnit.reset.slots.set 0 ⟨7, true⟩ }, .reset⟩)
      State.reset.activeBank.map[(0 : Fin 384)] .nobody = some 7 ∧
    State.reset.config.fallback = none ∧ State.reset.activeBank.map[(0 : Fin 384)].hold = 0 ∧
    (withConfig { ConfigRecord.default with fallbackScene := 3 } State.reset).config.fallback = some 3 := by
  decide +kernel

theorem witness_FadeTickAdvancesEveryChannel :
    State.reset.inReset = false ∧ State.reset.tickAt = some 20000 ∧ State.reset.pause = false ∧
    { State.reset with pause := true }.pause = true := by decide +kernel

theorem witness_SnapJumps :
    ProfileRecord.default.kind = 0 ∧ State.reset.inReset = false ∧ State.reset.tickAt = some 20000 ∧
    State.reset.pause = false ∧
    State.reset.activeBank.profiles[State.reset.targets[(383 : Fin 384)].profile].kind = 0 := by decide +kernel

theorem witness_SlewMovesAtMaxRate :
    slew2.kind = 1 ∧ (ctx 5 0 .up .idle 5).aim = (ctx 5 0 .up .idle 5).position ∧
    (ctx 5 0 .up .idle 9).position < (ctx 5 0 .up .idle 9).aim ∧
    (ctx 9 0 .up .idle 5).aim < (ctx 9 0 .up .idle 5).position := by decide

/-- From rest, and in motion (4.10.1, ticks 1 and 8). -/
theorem witness_RampMoves :
    (∃ (x : FadeContext) (v D d a w : Nat), ramp3.kind = 2 ∧
      (x.phase = .idle → x.position ≠ x.aim ∧ v = ramp3.startRate.toNat) ∧
      x.phase = .idle ∧ D = max x.aim x.position - min x.aim x.position ∧
      d = (if v ≤ ramp3.breakRate.toNat then ramp3.decelLow.toNat else ramp3.decelHigh.toNat) ∧
      a = (if v < ramp3.breakRate.toNat then ramp3.accelLow.toNat else ramp3.accelHigh.toNat) ∧
      (w = if 2 * d * D ≤ v * v then (if v < d + ramp3.floorRate.toNat then ramp3.floorRate.toNat else v - d)
        else if v < ramp3.maxRate.toNat then (if ramp3.maxRate.toNat < v + a then ramp3.maxRate.toNat else v + a)
        else v)) ∧
    (∃ (x : FadeContext) (v D d a w : Nat), ramp3.kind = 2 ∧
      (x.phase ≠ .idle → v = min x.rate ramp3.maxRate.toNat ∧
        (x.direction = .up → x.position ≤ x.aim) ∧ (x.direction = .down → x.aim ≤ x.position)) ∧
      x.phase = .moving ∧ D = max x.aim x.position - min x.aim x.position ∧
      d = (if v ≤ ramp3.breakRate.toNat then ramp3.decelLow.toNat else ramp3.decelHigh.toNat) ∧
      a = (if v < ramp3.breakRate.toNat then ramp3.accelLow.toNat else ramp3.accelHigh.toNat) ∧
      (w = if 2 * d * D ≤ v * v then (if v < d + ramp3.floorRate.toNat then ramp3.floorRate.toNat else v - d)
        else if v < ramp3.maxRate.toNat then (if ramp3.maxRate.toNat < v + a then ramp3.maxRate.toNat else v + a)
        else v)) :=
  ⟨⟨ctx 0 0 .up .idle 10240, 256, 10240, 128, 256, 512, by decide⟩,
    ⟨ctx 7680 1536 .up .moving 10240, 1536, 2560, 256, 128, 1280, by decide⟩⟩

/-- 4.10.2, tick 7, and its mirror. -/
theorem witness_RampBrakesAndTurns :
    ramp3.kind = 2 ∧ (1408 : Nat) = min 1408 ramp3.maxRate.toNat ∧
    256 = (if 1408 ≤ ramp3.breakRate.toNat then ramp3.decelLow.toNat else ramp3.decelHigh.toNat) ∧
    (ctx 6144 1408 .up .moving 2560).aim < (ctx 6144 1408 .up .moving 2560).position ∧
    (ctx 2560 1408 .down .moving 6144).position < (ctx 2560 1408 .down .moving 6144).aim ∧
    (ctx 5 0 .up .idle 5).position = (ctx 5 0 .up .idle 5).aim := by decide

theorem witness_StepsNeverPassTheAim :
    checkProfile ramp7 = none ∧ ramp7.kind ≠ 0 ∧ (ctx 16777215 4096 .down .moving 0).position ≤ 16777215 ∧
    checkProfile slew2 = none ∧ slew2.kind = 1 := by decide

theorem witness_FadesComeToRest :
    checkProfile ramp7 = none ∧ (ctx 16777215 40960 .up .moving 16776960).position ≤ 16777215 ∧
    (ctx 16777215 40960 .up .moving 16776960).aim ≤ 16776960 ∧ checkProfile .default = none := by decide

theorem witness_RefreshSnapshotsOrMisses :
    State.reset.inReset = false ∧ State.reset.refreshAt = some 500000 ∧ State.reset.output = .empty ∧
    State.reset.session = .noSession ∧ State.reset.config.outputLength.toNat ≤ 384 ∧ State.reset.tx.d ≠ .free ∧
    idlePart.tx.d = .free ∧ sendingPart.output ≠ .empty := by decide +kernel

/-- An ARMED session, with the accepted stream of A kept and that of B altered by the new bank; a tick that is due at the
changeover, and one that is not; D-tx free and not. -/
theorem witness_SnapshotMakesTheChangeover :
    let s := { withSession (.armed ownerA 7) with
      banks := ⟨.default, { Bank.default with config := { ConfigRecord.default with accepted := ⟨0, 2⟩ } }⟩ }
    s.inReset = false ∧ s.refreshAt = some 500000 ∧ s.output = .empty ∧ s.session = .armed ownerA 7 ∧
    s.config.accepted.get .a = s.shadowBank.config.accepted.get .a ∧
    s.config.accepted.get .b ≠ s.shadowBank.config.accepted.get .b ∧ s.config.outputLength.toNat ≤ 384 ∧
    s.tickAt = some 20000 ∧ 20000 ≤ max s.now 500000 ∧ { s with tickAt := some 500001 }.tickAt = some 500001 ∧
    max s.now 500000 < 500001 ∧ s.tx.d ≠ .free ∧ { s with tx := idlePart.tx }.tx.d = .free := by decide +kernel

theorem witness_OutputSequenceCountsSnapshots :
    State.reset.inReset = false ∧ State.reset.refreshAt = some 500000 ∧ State.reset.output = .empty ∧
    sendingPart.output ≠ .empty ∧ sendingPart.refreshAt = some 500000 ∧ Instr.fadeTick ≠ .refreshExpiry ∧
    ∃ t, exec .fadeTick State.reset = .next t :=
  ⟨rfl, rfl, rfl, by simp [sendingPart], rfl, by simp, _, rfl⟩

theorem witness_ReplaysAndFullQueues :
    requestParts (.force atA 0 1 9 0xFF []) = some (atA, 0x20, [0, 0, 0, 1, 0, 9, 0xFF]) ∧
    (Instr.force atA 0 1 9 0xFF []).wellFormed = true ∧ State.reset.inReset = false ∧
    atA.destination = State.reset.node ∧ { State.reset with replay := ⟨some forceRecord, none⟩ }.replay.get atA.port =
      some forceRecord ∧ atA.tag ≠ 0 ∧ forceRecord.tag = atA.tag ∧ forceRecord.command = 0x20 ∧
    State.reset.queue.length < 8 ∧ 8 ≤ fullQueue.queue.length := by decide +kernel

theorem witness_RefusedRequestsHaveNoEffect :
    ∃ (c : Instr) (h : RequestHeader) (code : Byte) (args : List Byte) (s t : State) (r : ReplayRecord),
      requestParts c = some (h, code, args) ∧ c.wellFormed = true ∧ Executes h code args s ∧
      exec c s = .next t ∧ t.replay.get h.port = some r ∧ r.reply.result ≠ .ok ∧ r.reply.result ≠ .accepted :=
  ⟨.abortSession atA 0x51 [], atA, 0x13, [0, 0x51], State.reset, _, _, rfl, rfl, executes_atA rfl rfl rfl rfl (by decide),
    rfl, rfl, nofun, nofun⟩

theorem witness_GeneralChecksComeFirst :
    (Instr.badCommand atA 0x77 []).wellFormed = true ∧ Executes atA 0x77 [] State.reset ∧
    requestParts (.restart { atA with reserved := 1 } []) = some ({ atA with reserved := 1 }, 0x31, []) ∧
    (Instr.restart { atA with reserved := 1 } []).wellFormed = true ∧
    Executes { atA with reserved := 1 } 0x31 [] State.reset ∧ (1 : Byte) ≠ 0 ∧
    (Command.ofCode 0x31).isSome = true :=
  ⟨rfl, executes_atA rfl rfl rfl rfl (by decide), rfl, rfl, ⟨rfl, rfl, nofun, by decide, by decide⟩, by decide, rfl⟩

/-- A broadcast at B and at A, with the forward FIFO empty and full, and one that is not carried out. -/
theorem witness_BroadcastsAreNotAnswered :
    State.reset.inReset = false ∧ (0 : Byte) ≠ State.reset.node ∧ State.reset.queue.length < 8 ∧
    State.reset.replay.b = none ∧ (Instr.restart ⟨.b, 0, 5, 0⟩ []).wellFormed = true ∧
    SameForHeaders ⟨.b, 0, 5, 0⟩ ⟨.b, 63, 5, 0⟩ (.restart ⟨.b, 0, 5, 0⟩ []) (.restart ⟨.b, 63, 5, 0⟩ []) ∧
    SameForHeaders ⟨.a, 0, 5, 0⟩ ⟨.b, 0, 5, 0⟩ (.saveScene ⟨.a, 0, 5, 0⟩ 3 []) (.saveScene ⟨.b, 0, 5, 0⟩ 3 []) ∧
    State.reset.config.forwardEnable = 1 ∧ State.reset.forward.length < 4 ∧
    4 ≤ { State.reset with forward := List.replicate 4 emptyReply }.forward.length ∧
    (0x22 : Byte) ≠ 0x31 ∧ hasKind 0x0001 .forwardDrop = false ∧
    (Instr.identify ⟨.a, 0, 5, 0⟩ []).wellFormed = true ∧
    takingPart.inReset = false ∧ (0 : Byte) ≠ takingPart.node ∧ takingPart.queue = [takenReply] ∧
    SameForHeaders ⟨.a, 0, 5, 0⟩ ⟨.b, 0, 5, 0⟩ (.restart ⟨.a, 0, 5, 0⟩ []) (.restart ⟨.b, 0, 5, 0⟩ []) ∧
    (0x01 : Byte) ∉ ([0x20, 0x21, 0x22, 0x30, 0x31] : List Byte) :=
  ⟨rfl, by decide, by decide, rfl, rfl, .inr (.inr (.inr (.inr ⟨[], rfl, rfl⟩))), .inr (.inr (.inl ⟨3, [], rfl, rfl⟩)),
    rfl, by decide, by decide, by decide, rfl, rfl, rfl, by decide,
    rfl, .inr (.inr (.inr (.inr ⟨[], rfl, rfl⟩))), by decide⟩

theorem witness_IdentityAndStatusAreRead :
    atA.reserved = 0 ∧ Executes atA 0x01 [] State.reset ∧ Executes atA 0x02 [] State.reset :=
  ⟨rfl, executes_atA rfl rfl rfl rfl (by decide), executes_atA rfl rfl rfl rfl (by decide)⟩

/-- The last channel alone, the largest ranges, and ranges one too large. -/
theorem witness_ChannelsAndInputsAreRead :
    Executes atA 0x03 (bytes16 383 ++ [1] ++ []) State.reset ∧ Executes atA 0x04 ([1] ++ bytes16 320 ++ [64] ++ []) State.reset ∧
    (383 : BitVec 16).toNat + (1 : Byte).toNat ≤ 384 ∧ (320 : BitVec 16).toNat + (64 : Byte).toNat ≤ 384 ∧
    (1 : Byte) = (if Port.b = .a then 0 else 1) ∧
    Executes atA 0x03 (bytes16 369 ++ [16] ++ []) State.reset ∧ 384 < (369 : BitVec 16).toNat + (16 : Byte).toNat ∧
    Executes atA 0x04 ([2] ++ bytes16 0 ++ [1] ++ []) State.reset ∧ 1 < (2 : Byte).toNat :=
  ⟨executes_atA rfl rfl rfl rfl (by decide), executes_atA rfl rfl rfl rfl (by decide), by decide, by decide, by decide,
    executes_atA rfl rfl rfl rfl (by decide), by decide, executes_atA rfl rfl rfl rfl (by decide), by decide⟩

/-- The last entries of a banked table and of SCENES, and one entry beyond. -/
theorem witness_TablesAreRead :
    Executes atA 0x05 ([1, 2] ++ bytes16 8 ++ [8] ++ []) State.reset ∧ (2 : Byte) = TableName.profiles.code ∧
    (8 : Byte).toNat ≤ TableName.profiles.perRequest ∧
    (8 : BitVec 16).toNat + (8 : Byte).toNat ≤ TableName.profiles.entries ∧ (withSession (.copying 5)).session = .copying 5 ∧
    Executes atA 0x05 ([0, 4] ++ bytes16 1472 ++ [64] ++ []) State.reset ∧
    (1472 : BitVec 16).toNat + (64 : Byte).toNat ≤ TableName.scenes.entries ∧
    Executes atA 0x05 ([0, 0] ++ bytes16 1 ++ [1] ++ []) State.reset ∧
    TableName.config.entries < (1 : BitVec 16).toNat + (1 : Byte).toNat :=
  ⟨executes_atA rfl rfl rfl rfl (by decide), rfl, by decide, by decide, rfl, executes_atA rfl rfl rfl rfl (by decide),
    by decide, executes_atA rfl rfl rfl rfl (by decide), by decide⟩

/-- Every state of the session, with the owner and with another. -/
theorem witness_sessions (x : Session) (code : Byte) (args : List Byte) (hl : args.length + 4 ≤ 256) :
    atA.reserved = 0 ∧ Executes atA code args (withSession x) ∧ (withSession x).session = x ∧
    ownerA = ⟨atA.port, 0x51⟩ ∧ (⟨.b, 0x51⟩ : SessionOwner) ≠ ownerA :=
  ⟨rfl, executes_atA rfl rfl rfl rfl hl, rfl, rfl, by decide⟩

theorem witness_SessionsAreOpened :
    Executes atA 0x10 (bytes16 0x51 ++ []) State.reset ∧ (0x51 : BitVec 16) ≠ 0 ∧
    Executes atA 0x10 (bytes16 0x51 ++ []) (withSession (.opened ownerA 9)) ∧
    Executes atA 0x10 (bytes16 0x51 ++ []) (withSession (.copying 9)) :=
  ⟨executes_atA rfl rfl rfl rfl (by decide), by decide, executes_atA rfl rfl rfl rfl (by decide),
    executes_atA rfl rfl rfl rfl (by decide)⟩

/-- Two CURVES entries written over the end of the table, from an index and from the pointer; and a table code that is
refused. -/
theorem witness_WrittenEntriesReadBack :
    let s := { withSession (.opened ⟨.a, 0x51⟩ 9) with pointer := ⟨.curves, 7⟩ }
    let bytes : List Byte := List.replicate 68 1
    Executes atA 0x11 (bytes16 0x51 ++ [TableName.curves.code] ++ bytes16 7 ++ [2] ++ bytes) s ∧
    Executes atA 0x11 (bytes16 0x51 ++ [TableName.curves.code] ++ bytes16 0xFFFF ++ [2] ++ bytes) s ∧
    s.session = .opened ⟨atA.port, 0x51⟩ 9 ∧ TableName.curves ≠ .scenes ∧ 1 ≤ (2 : Byte).toNat ∧
    (2 : Byte).toNat ≤ TableName.curves.perRequest ∧ bytes.length = (2 : Byte).toNat * TableName.curves.entrySize ∧
    (7 = (7 : BitVec 16).toNat ∧ (7 : BitVec 16) ≠ 0xFFFF) ∧ s.pointer = ⟨.curves, 7⟩ ∧ 7 < TableName.curves.entries ∧
    Executes atA 0x11 (bytes16 0x51 ++ [5] ++ bytes16 7 ++ [2] ++ bytes) s ∧ 4 < (5 : Byte).toNat :=
  ⟨executes_atA rfl rfl rfl rfl (by decide), executes_atA rfl rfl rfl rfl (by decide), rfl, by decide, by decide,
    by decide, by decide, by decide, rfl, by decide, executes_atA rfl rfl rfl rfl (by decide), by decide⟩

/-- The part with fallback scene 3 and every channel in SCENE, and a session open. -/
def fallenPart : State :=
  withConfig { ConfigRecord.default with fallbackScene := 3 } { State.reset with
    targets := Vector.replicate 384 ⟨0, 0, .scene, .nobody⟩, session := .opened ⟨.a, 0x51⟩ 9 }

/-- Its target records are what a resolution gives (R57). -/
theorem fallenTarget (c : Fin Config.channels) :
    resolveTarget fallenPart c fallenPart.targets[c] = fallenPart.targets[c] := by
  have hc : ∀ src, contribution fallenPart.ports src = none := by
    rintro (_ | ⟨p, i⟩)
    · rfl
    · cases p <;> rfl
  have he : fallenPart.activeBank.map[c] = MapEntry.default c.val := Table.getElem_mapFin _ _ c.val c.isLt
  have hl : fallenPart.liveLevel c .nobody = none := by
    simp only [State.liveLevel, mergedValue, hc]
    cases (fallenPart.activeBank.map[c]).mergeRule <;> rfl
  have hf : fallenPart.fallbackLevel c = some (0, 0) := by
    have h3 : fallenPart.config.fallback = some 3 := by decide +kernel
    have hs : fallenPart.scenes[(3 : Fin 4)][c] = 0 := by
      simp [fallenPart, withConfig, State.reset]
    rw [State.fallbackLevel, he, h3]
    exact congrArg (fun v => some (v, (0 : Fin 16))) hs
  have ht : fallenPart.targets[c] = ⟨0, 0, .scene, .nobody⟩ := Vector.getElem_replicate c.isLt
  have hp : fallenPart.parks[c] = ParkRecord.reset := Vector.getElem_replicate c.isLt
  rw [resolveTarget, hf, ht, hp, show TargetRecord.owner ⟨0, 0, .scene, .nobody⟩ = .nobody from rfl, hl]
  rfl

/-- Two levels over the end of the scene store, every target record resolved, every channel in SCENE. -/
theorem witness_ScenesAreWrittenAtOnce :
    Executes atA 0x11 (bytes16 0x51 ++ [4] ++ bytes16 1535 ++ [2] ++ bytesOfHalves [7, 8]) fallenPart ∧
    fallenPart.session = .opened ⟨atA.port, 0x51⟩ 9 ∧ ([7, 8] : List Level).length = (2 : Byte).toNat ∧
    (1535 = (1535 : BitVec 16).toNat ∧ (1535 : BitVec 16) ≠ 0xFFFF) ∧ 1535 < 1536 ∧
    384 * (3 : Fin 4).val + (383 : Fin Config.channels).val = (1535 + 0) % 1536 ∧
    fallenPart.targets[(383 : Fin Config.channels)].kind = .scene ∧
    ∀ c : Fin Config.channels, resolveTarget fallenPart c fallenPart.targets[c] = fallenPart.targets[c] :=
  ⟨executes_atA rfl rfl rfl rfl (by decide), rfl, rfl, by decide, by decide, by decide, by decide +kernel, fallenTarget⟩

theorem witness_CommitsAndAborts :
    Executes atA 0x12 (bytes16 0x51 ++ bytes32 7 ++ []) (withSession (.opened ownerA 9)) ∧
    Executes atA 0x13 (bytes16 0x51 ++ []) (withSession (.verifying ownerA 7 9)) ∧
    Executes atA 0x13 (bytes16 0x51 ++ []) (withSession (.armed ownerA 7)) :=
  ⟨executes_atA rfl rfl rfl rfl (by decide), executes_atA rfl rfl rfl rfl (by decide),
    executes_atA rfl rfl rfl rfl (by decide)⟩

theorem witness_SessionTimersRunOut :
    (withSession (.opened ownerA 9)).inReset = false ∧ (withSession (.opened ownerA 9)).session = .opened ownerA 9 ∧
    (withSession (.verifying ownerA (crc32 Bank.default.image) 9)).session =
      .verifying ownerA (crc32 Bank.default.image) 9 ∧
    verify State.reset.shadowBank (crc32 Bank.default.image) = none ∧
    verify { Bank.default with config := { ConfigRecord.default with tickPeriod := 0 } } 7 =
      some ⟨.tick, some ⟨.config, 0⟩⟩ :=
  ⟨rfl, rfl, rfl, test_verification_arms, by decide +kernel⟩

theorem witness_VerificationFindsTheFirstFailure :
    verify { Bank.default with config := { ConfigRecord.default with tickPeriod := 0 } } 7 =
      some ⟨.tick, some ⟨.config, 0⟩⟩ ∧
    verify { Bank.default with map := Bank.default.map.set 383 { MapEntry.default 383 with curve := 9 } } 7 =
      some ⟨.curve, some ⟨.map, 383⟩⟩ ∧
    verify { Bank.default with profiles := Bank.default.profiles.set 15 { ramp3 with floorRate := 0 } } 7 =
      some ⟨.floorRate, some ⟨.profiles, 15⟩⟩ ∧
    verify Bank.default (crc32 Bank.default.image) = none := by
  refine ⟨?_, ?_, ?_, test_verification_arms⟩ <;> decide +kernel

theorem witness_CopyRestoresTheShadow :
    (withSession (.copying 9)).inReset = false ∧ (withSession (.copying 9)).session = .copying 9 ∧
    (0x51 : BitVec 16) ≠ 0 ∧ ∃ t, exec .copyComplete (withSession (.copying 9)) = .next t ∧
      Executes atA 0x10 (bytes16 0x51 ++ []) t :=
  ⟨rfl, rfl, by decide, _, rfl, executes_atA rfl rfl rfl rfl (by decide)⟩

/-- The last channel, all channels, and one channel too many; the highest profile, no profile, and one too high. -/
theorem witness_ParksAndReleases :
    Executes atA 0x20 (bytes16 383 ++ bytes16 1 ++ bytes16 9 ++ [15] ++ []) State.reset ∧
    Executes atA 0x20 (bytes16 0 ++ bytes16 384 ++ bytes16 9 ++ [0xFF] ++ []) State.reset ∧
    Executes atA 0x20 (bytes16 0 ++ bytes16 1 ++ bytes16 9 ++ [16] ++ []) State.reset ∧
    Executes atA 0x21 (bytes16 0 ++ bytes16 384 ++ []) State.reset ∧
    Executes atA 0x21 (bytes16 1 ++ bytes16 384 ++ []) State.reset ∧
    (383 : BitVec 16).toNat + (1 : BitVec 16).toNat ≤ 384 ∧ (0 : BitVec 16).toNat + (384 : BitVec 16).toNat ≤ 384 ∧
    384 < (1 : BitVec 16).toNat + (384 : BitVec 16).toNat ∧ (15 : Byte).toNat ≤ 15 ∧
    ((16 : Byte) ≠ 0xFF ∧ 15 < (16 : Byte).toNat) :=
  ⟨executes_atA rfl rfl rfl rfl (by decide), executes_atA rfl rfl rfl rfl (by decide),
    executes_atA rfl rfl rfl rfl (by decide), executes_atA rfl rfl rfl rfl (by decide),
    executes_atA rfl rfl rfl rfl (by decide), by decide, by decide, by decide, by decide, by decide⟩

theorem witness_SaveSceneCapturesTheLevels :
    Executes atA 0x22 (3 :: []) State.reset ∧ (3 : Byte).toNat ≤ 3 ∧ Executes atA 0x22 (4 :: []) State.reset ∧
    3 < (4 : Byte).toNat ∧ atA.reserved = 0 :=
  ⟨executes_atA rfl rfl rfl rfl (by decide), by decide, executes_atA rfl rfl rfl rfl (by decide), by decide, rfl⟩

theorem witness_AcknowledgedKindsAreCleared :
    atA.reserved = 0 ∧ Executes atA 0x30 (bytes16 0x8001 ++ []) State.reset :=
  ⟨rfl, executes_atA rfl rfl rfl rfl (by decide)⟩

/-- A RESTART at A with nothing queued, and with a reply being sent on B. -/
theorem witness_RestartIsWarm :
    atA.reserved = 0 ∧ Executes atA 0x31 [] State.reset ∧ Executes atA 0x31 [] takingPart ∧ takingPart.queue = [takenReply] :=
  ⟨rfl, executes_atA rfl rfl rfl rfl (by decide), ⟨rfl, rfl, nofun, by decide, by decide⟩, rfl⟩

theorem witness_OnlyTheirEventsChangeFadesAndProgram :
    Instr.refreshExpiry ≠ .fadeTick ∧ Instr.refreshExpiry ≠ .hardReset ∧
    (∀ o k, State.reset.session ≠ .armed o k) ∧ (∃ t, exec .refreshExpiry State.reset = .next t) ∧
    (let s := { withSession (.armed ownerA 7) with tickAt := some 500001 }
     s.output = .empty ∧ s.session = .armed ownerA 7 ∧ s.refreshAt = some 500000 ∧ max s.now 500000 < 500001) :=
  ⟨nofun, nofun, nofun, ⟨_, rfl⟩, rfl, rfl, rfl, by decide⟩

/-! The invariants: the part with a command waiting has each of them and takes a step. -/

/-- The part in motion, a command waiting. -/
def runningPart : State := { idlePart with pending := [.pauseRelease] }

theorem witness_steps : ∃ t, step runningPart = .next t := ⟨_, rfl⟩

theorem witness_RangesHold :
    runningPart.WithinCapacity ∧ runningPart.NodeInRange ∧ runningPart.PointerInRange := by
  simp [State.WithinCapacity, State.NodeInRange, State.PointerInRange, runningPart, idlePart, State.reset,
    TableName.entries]

theorem witness_TransmittersAgreeWithTheirSources :
    runningPart.NothingWaitsForFree ∧ runningPart.SendingIsOnLine := by
  simp [State.NothingWaitsForFree, State.SendingIsOnLine, runningPart, idlePart, State.reset]

theorem witness_AlertFollowsTheLatchedSet : runningPart.AlertFollows := by
  simp [State.AlertFollows, hasKind, runningPart, idlePart, State.reset]

theorem witness_NoticesAreOwedOnce : runningPart.NoticesOnce ∧ runningPart.WithinCapacity := by
  simp [State.NoticesOnce, State.noticesFor, State.WithinCapacity, hasKind, runningPart, idlePart, State.reset]

/-- The part that runs, and the part while RESET is asserted with a command waiting, each of which takes a step. -/
theorem witness_RunningProgramIsVerified :
    runningPart.ProgramSound ∧ runningPart.DefaultsUnderReset ∧
    (let s := { heldPart with pending := [.pauseAssert] }
     s.inReset = true ∧ s.DefaultsUnderReset ∧ ∃ t, step s = .next t) :=
  ⟨⟨test_verification_arms, fun _ => rfl, nofun⟩, nofun, rfl, fun _ => ⟨rfl, rfl⟩, _, rfl⟩

theorem witness_PortUnitsStaySound : runningPart.PortsSound := by
  have h : PortUnit.reset.Sound := ⟨rfl, rfl, rfl, fun i => by simp [PortUnit.reset]⟩
  exact ⟨h, h⟩

theorem witness_TargetsStayResolved : runningPart.TargetsResolved ∧ runningPart.OwnersSound :=
  ⟨restingTarget, fun c _ => by simp [runningPart, idlePart, State.reset, TargetRecord.reset]⟩

theorem witness_FadesStayInRange : runningPart.FadesInRange := by
  intro c; simp [FadeContext.InRange, runningPart, idlePart, State.reset, FadeContext.reset]

end Sys2Proof.Tests
end

section
/-! The transmitters and what they serve: every operation keeps that no FREE transmitter leaves a frame waiting, and that
what is called SENDING is on its line (O53). -/

namespace Sys2Proof.Machine

/-! ## Agreement of the lines with their sources -/

/-- What is called SENDING is on its line, whatever RESET does (R112, R138 to R140). -/
def State.LinesAgree (s : State) : Prop :=
  (∀ f, s.output = .sending f → ∃ n, s.tx.d = .sending f n) ∧
  (∀ p, s.queue.countP (·.sendsOn p) ≤ 1) ∧
  (∀ p, ∀ e ∈ s.queue, e.sendsOn p = true → ∃ n, s.tx.get (returnTx p) = .sending e.message.frame n)

/-- Between two states nothing comes to wait for a FREE transmitter, and what is called SENDING stays on its line. -/
def KeepsLines (s t : State) : Prop :=
  (s.NothingWaitsForFree → t.NothingWaitsForFree) ∧ (s.LinesAgree → t.LinesAgree)

theorem KeepsLines.refl (s : State) : KeepsLines s s := ⟨id, id⟩

theorem KeepsLines.trans {s t u : State} (h : KeepsLines s t) (k : KeepsLines t u) : KeepsLines s u :=
  ⟨k.1 ∘ h.1, k.2 ∘ h.2⟩

/-- Where the transmitters and what they serve stand, the agreement does. -/
theorem KeepsLines.of_same {s t : State}
    (h : (t.tx, t.output, t.forward, t.relay, t.queue) = (s.tx, s.output, s.forward, s.relay, s.queue)) :
    KeepsLines s t := by
  simp only [Prod.mk.injEq] at h
  obtain ⟨h1, h2, h3, h4, h5⟩ := h
  unfold KeepsLines State.NothingWaitsForFree State.LinesAgree
  rw [h1, h2, h3, h4, h5]
  exact ⟨id, id⟩

/-- An operation on a state with the same lines. -/
theorem KeepsLines.after {s t u : State} (k : KeepsLines t u)
    (h : (t.tx, t.output, t.forward, t.relay, t.queue) = (s.tx, s.output, s.forward, s.relay, s.queue)) :
    KeepsLines s u := (KeepsLines.of_same h).trans k

/-! ## The arbiters -/

/-- What D-tx leaves waiting in FREE is nothing (R113). -/
theorem serveD_leaves_nothing (s : State) (h : (serveD s).tx.d = .free) :
    (∀ f, (serveD s).output ≠ .waiting f) ∧ (serveD s).forward = [] := by
  obtain ⟨f, -, -, e⟩ | ⟨f, r, -, -, -, e⟩ | ⟨hw, e⟩ := serveD_cases s <;> rw [e] at h ⊢
  · simp [startTx, PerTx.set] at h
  · simp [startTx, PerTx.set] at h
  · exact hw h

/-- What A-return-tx can do: nothing, the oldest waiting entry for A, or the head of the relay FIFO (R140). -/
theorem serveA_cases (s : State) :
    (∃ m q, s.tx.a = .free ∧ takeOldest .a s.queue = some (m, q) ∧
      serveA s = startTx .aReturnTx m.frame { s with queue := q, preference := .relay }) ∨
    (∃ f rest, s.tx.a = .free ∧ s.relay = f :: rest ∧
      serveA s = startTx .aReturnTx f { s with relay := rest, preference := .replies }) ∨
    ((s.tx.a = .free → s.relay = [] ∧ s.queue.countP (·.waitsFor .a) = 0) ∧ serveA s = s) := by
  unfold serveA
  split
  · rename_i ha
    split
    · rename_i m q hq hr; exact .inl ⟨m, q, ha, hq, rfl⟩
    · rename_i f rest hq hr; exact .inr (.inl ⟨f, rest, ha, hr, rfl⟩)
    · rename_i m q f rest hq hr
      split
      · exact .inl ⟨m, q, ha, hq, rfl⟩
      · exact .inr (.inl ⟨f, rest, ha, hr, rfl⟩)
    · rename_i hq hr; exact .inr (.inr ⟨fun _ => ⟨hr, takeOldest_none.mp hq⟩, rfl⟩)
  · rename_i ha; exact .inr (.inr ⟨fun h => absurd h ha, rfl⟩)

/-- What B-return-tx can do: nothing, or the oldest waiting entry for B (R139). -/
theorem serveB_cases (s : State) :
    (∃ m q, s.tx.b = .free ∧ takeOldest .b s.queue = some (m, q) ∧
      serveB s = startTx .bReturnTx m.frame { s with queue := q }) ∨
    ((s.tx.b = .free → s.queue.countP (·.waitsFor .b) = 0) ∧ serveB s = s) := by
  unfold serveB
  split
  · rename_i hb
    split
    · rename_i m q hq; exact .inl ⟨m, q, hb, hq, rfl⟩
    · rename_i hq; exact .inr ⟨fun _ => takeOldest_none.mp hq, rfl⟩
  · rename_i hb; exact .inr ⟨fun h => absurd h hb, rfl⟩

/-- What A-return-tx leaves waiting in FREE is nothing (R140). -/
theorem serveA_leaves_nothing (s : State) (h : (serveA s).tx.a = .free) :
    (serveA s).relay = [] ∧ (serveA s).queue.countP (·.waitsFor .a) = 0 := by
  obtain ⟨m, q, -, -, e⟩ | ⟨f, r, -, -, e⟩ | ⟨hw, e⟩ := serveA_cases s <;> rw [e] at h ⊢
  · simp [startTx, PerTx.set] at h
  · simp [startTx, PerTx.set] at h
  · exact hw h

/-- What B-return-tx leaves waiting in FREE is nothing (R139). -/
theorem serveB_leaves_nothing (s : State) (h : (serveB s).tx.b = .free) :
    (serveB s).queue.countP (·.waitsFor .b) = 0 := by
  obtain ⟨m, q, -, -, e⟩ | ⟨hw, e⟩ := serveB_cases s <;> rw [e] at h ⊢
  · simp [startTx, PerTx.set] at h
  · exact hw h

/-- An entry taken for one port changes how many wait for it alone (R138). -/
theorem takeOldest_waits_other {p p' : Port} (hp : p' ≠ p) {q q' : List QueueEntry} {m : Message}
    (h : takeOldest p q = some (m, q')) : q'.countP (·.waitsFor p') = q.countP (·.waitsFor p') := by
  obtain ⟨l, r, e, rfl, he, -, -, rfl⟩ := takeOldest_some h
  have hd : e.destination = p := by simp only [QueueEntry.waitsFor, decide_eq_true_eq] at he; exact he.1
  simp [QueueEntry.waitsFor, hd, hp.symm]

/-- Serving a return line leaves what waits for the other as it was (R139, R140). -/
theorem serveA_waits_b (s : State) :
    (serveA s).queue.countP (·.waitsFor .b) = s.queue.countP (·.waitsFor .b) := by
  obtain ⟨m, q, -, hq, e⟩ | ⟨f, r, -, -, e⟩ | ⟨-, e⟩ := serveA_cases s <;> rw [e]
  · exact takeOldest_waits_other (by decide) hq
  · rfl

theorem serveB_waits_a (s : State) :
    (serveB s).queue.countP (·.waitsFor .a) = s.queue.countP (·.waitsFor .a) := by
  obtain ⟨m, q, -, hq, e⟩ | ⟨-, e⟩ := serveB_cases s <;> rw [e]
  exact takeOldest_waits_other (by decide) hq

/-- The oldest waiting entry of a port whose transmitter is FREE goes to SENDING with the frame the transmitter takes: the
queue and the return lines still agree (R137, R138). -/
theorem State.LinesAgree.take {p : Port} {s t : State} (h : s.LinesAgree) (hf : s.tx.get (returnTx p) = .free) {m : Message}
    {n : Nat} (hq : takeOldest p s.queue = some (m, t.queue)) (ht : t.tx = s.tx.set (returnTx p) (.sending m.frame n))
    (ho : t.output = s.output) : t.LinesAgree := by
  obtain ⟨hout, hone, hline⟩ := h
  obtain ⟨l, r, e, hs, he, rfl, -, hq'⟩ := takeOldest_some hq
  simp only [QueueEntry.waitsFor, decide_eq_true_eq] at he
  have hnone : ∀ d ∈ s.queue, d.sendsOn p = false := by
    intro d hd
    by_contra hb
    obtain ⟨k, hk⟩ := hline p d hd (by simpa using hb)
    rw [hf] at hk; cases hk
  have hother : ∀ p' ≠ p, ({ e with state := .sending } : QueueEntry).sendsOn p' = false := by
    intro p' hp; simp [QueueEntry.sendsOn, he.1, hp.symm]
  refine ⟨fun f hf' => ?_, fun p' => ?_, fun p' d hd hd' => ?_⟩
  · rw [ho] at hf'
    obtain ⟨k, hk⟩ := hout f hf'
    refine ⟨k, ?_⟩
    rw [ht]; cases p <;> exact hk
  · rw [hq']
    have hone := hone p'
    rw [hs] at hone hnone
    by_cases hp : p' = p
    · subst hp
      have hl : l.countP (·.sendsOn p') = 0 := List.countP_eq_zero.mpr fun d hd => by simp [hnone d (by simp [hd])]
      have hr : r.countP (·.sendsOn p') = 0 := List.countP_eq_zero.mpr fun d hd => by simp [hnone d (by simp [hd])]
      simp only [List.countP_append, List.countP_cons, hl, hr]
      split <;> omega
    · simp only [List.countP_append, List.countP_cons, hother p' hp] at hone ⊢
      simp only [Bool.false_eq_true, if_false]
      omega
  · rw [hq', List.mem_append, List.mem_cons] at hd
    rw [ht, PerTx.get_set]
    by_cases hp : p' = p
    · subst hp
      rw [if_pos rfl]
      rcases hd with hd | rfl | hd
      · rw [hnone d (by simp [hs, hd])] at hd'; cases hd'
      · exact ⟨n, rfl⟩
      · rw [hnone d (by simp [hs, hd])] at hd'; cases hd'
    · rw [if_neg (by cases p <;> cases p' <;> simp_all [returnTx])]
      rcases hd with hd | rfl | hd
      · exact hline p' d (by simp [hs, hd]) hd'
      · rw [hother p' hp] at hd'; cases hd'
      · exact hline p' d (by simp [hs, hd]) hd'

/-- Serving D keeps the lines in agreement (R112, R113). -/
theorem serveD_linesAgree {s : State} (h : s.LinesAgree) : (serveD s).LinesAgree := by
  obtain ⟨f, -, -, e⟩ | ⟨f, r, hd, -, -, e⟩ | ⟨-, e⟩ := serveD_cases s <;> rw [e]
  · refine ⟨fun g hg => ?_, h.2.1, fun p e he hs => ?_⟩
    · cases hg; exact ⟨_, rfl⟩
    · obtain ⟨n, hn⟩ := h.2.2 p e he hs
      exact ⟨n, by cases p <;> exact hn⟩
  · refine ⟨fun g hg => ?_, h.2.1, fun p e he hs => ?_⟩
    · obtain ⟨n, hn⟩ := h.1 g hg
      rw [hd] at hn; cases hn
    · obtain ⟨n, hn⟩ := h.2.2 p e he hs
      exact ⟨n, by cases p <;> exact hn⟩
  · exact h

/-- Serving A keeps the lines in agreement (R138, R140). -/
theorem serveA_linesAgree {s : State} (h : s.LinesAgree) : (serveA s).LinesAgree := by
  obtain ⟨m, q, ha, hq, e⟩ | ⟨f, r, ha, -, e⟩ | ⟨-, e⟩ := serveA_cases s <;> rw [e]
  · exact h.take (p := .a) ha hq rfl rfl
  · refine ⟨h.1, h.2.1, fun p e he hs => ?_⟩
    obtain ⟨n, hn⟩ := h.2.2 p e he hs
    cases p
    · exact absurd (hn.symm.trans ha) nofun
    · exact ⟨n, hn⟩
  · exact h

/-- Serving B keeps the lines in agreement (R138, R139). -/
theorem serveB_linesAgree {s : State} (h : s.LinesAgree) : (serveB s).LinesAgree := by
  obtain ⟨m, q, hb, hq, e⟩ | ⟨-, e⟩ := serveB_cases s <;> rw [e]
  · exact h.take (p := .b) hb hq rfl rfl
  · exact h

/-! ## Entries that join and leave the queue -/

/-- A queue whose entries WAIT or stood before, on the same lines, agrees as the old one did. -/
theorem State.LinesAgree.joined {s : State} (h : s.LinesAgree) (m : Message) (p : Port) :
    State.LinesAgree { s with queue := s.queue ++ [⟨m, p, .waiting⟩] } := by
  obtain ⟨hout, hone, hline⟩ := h
  have hw : ∀ p', (⟨m, p, .waiting⟩ : QueueEntry).sendsOn p' = false := by intro p'; simp [QueueEntry.sendsOn]
  refine ⟨hout, fun p' => ?_, fun p' e he hs => ?_⟩
  · simpa [List.countP_append, hw p'] using hone p'
  · rw [List.mem_append, List.mem_singleton] at he
    obtain he | rfl := he
    · exact hline p' e he hs
    · rw [hw] at hs; cases hs

theorem joinQueue_keepsLines (m : Message) (p : Port) (s : State) : KeepsLines s (joinQueue m p s) := by
  refine ⟨(joinQueue_serves m p s).2, fun h => ?_⟩
  cases p
  · exact serveA_linesAgree (h.joined m .a)
  · exact serveB_linesAgree (h.joined m .b)

/-- The entry removed is the only one with the port's transmitter that a line allows (R138). -/
theorem removeSending_some {p : Port} {q q' : List QueueEntry} (h : removeSending p q = some q') :
    ∃ l e r, q = l ++ e :: r ∧ e.sendsOn p = true ∧ q' = l ++ r := by
  induction q generalizing q' with
  | nil => simp [removeSending] at h
  | cons e rest ih =>
    unfold removeSending at h
    split at h
    · rename_i he
      cases h
      exact ⟨[], e, rest, rfl, by simpa [QueueEntry.sendsOn] using he, rfl⟩
    · cases hr : removeSending p rest with
      | none => simp [hr] at h
      | some q1 =>
        simp only [hr, Option.map_some, Option.some.injEq] at h
        obtain ⟨l, e', r, h1, h2, h3⟩ := ih hr
        exact ⟨e :: l, e', r, by simp [h1], h2, by simp [← h, h3]⟩

/-! ## Latchings, notices and paths -/

theorem offerNotice_keepsLines (k : Condition) (s : State) : KeepsLines s (offerNotice k s) := by
  unfold offerNotice; repeat' split
  · exact .refl s
  · exact joinQueue_keepsLines _ _ s
  · exact .of_same rfl

theorem latchFlag_keepsLines (k : Condition) (s : State) : KeepsLines s (latchFlag k s).1 := by
  rw [latchFlag_eq]; exact .of_same rfl

theorem latch_keepsLines (k : Condition) (s : State) : KeepsLines s (latch k s) := by
  rw [latch_eq]; split
  · exact (latchFlag_keepsLines k s).trans (offerNotice_keepsLines k _)
  · exact latchFlag_keepsLines k s

theorem latchAll_keepsLines (ks : List Condition) (s : State) : KeepsLines s (latchAll ks s) := by
  induction ks generalizing s with
  | nil => exact .refl s
  | cons k ks ih => exact (latch_keepsLines k s).trans (ih _)

theorem latchFlags_keepsLines (ks : List Condition) (s : State) : KeepsLines s (latchFlags ks s).1 := by
  induction ks generalizing s with
  | nil => exact .refl s
  | cons k ks ih => exact (latchFlag_keepsLines k s).trans (ih _)

theorem offerNotices_keepsLines (ks : List Condition) (s : State) : KeepsLines s (offerNotices ks s) := by
  induction ks generalizing s with
  | nil => exact .refl s
  | cons k ks ih => exact (offerNotice_keepsLines k s).trans (ih _)

theorem drainPending_keepsLines (s : State) : KeepsLines s (drainPending s) := by
  unfold drainPending; split
  · exact (joinQueue_keepsLines _ _ _).after rfl
  · exact .refl s

/-- D-tx serves what is offered to it: the forward FIFO or the output frame may be new, as long as the return lines stand
and no output frame is newly called SENDING (R112, R113, R116). -/
theorem serveD_keepsLines {s t : State} (h : (t.tx, t.relay, t.queue) = (s.tx, s.relay, s.queue))
    (ho : ∀ f, t.output = .sending f → s.output = .sending f) : KeepsLines s (serveD t) := by
  simp only [Prod.mk.injEq] at h
  obtain ⟨h1, h2, h3⟩ := h
  refine ⟨fun hn => ⟨serveD_leaves_nothing t, ?_, ?_⟩, fun ha => serveD_linesAgree ⟨fun f hf => ?_, ?_, ?_⟩⟩
  · rw [serveD_frame t]; simp only [h1, h2, h3]; exact hn.2.1
  · rw [serveD_frame t]; simp only [h1, h3]; exact hn.2.2
  · rw [h1]; exact ha.1 f (ho f hf)
  · rw [h3]; exact ha.2.1
  · rw [h1, h3]; exact ha.2.2

theorem forwardPath_keepsLines (f : Frame) (s : State) : KeepsLines s (forwardPath f s) := by
  unfold forwardPath; repeat' split
  · exact latch_keepsLines _ s
  · exact serveD_keepsLines rfl fun _ => id
  · exact .refl s

theorem relayPath_keepsLines (f : Frame) (s : State) : KeepsLines s (relayPath f s) := by
  unfold relayPath; split
  · exact latch_keepsLines _ s
  · refine ⟨fun hn => ⟨?_, serveA_leaves_nothing _, fun hb => ?_⟩, fun h => serveA_linesAgree h⟩
    · rw [serveA_frame]; exact hn.1
    · rw [serveA_waits_b]; rw [serveA_frame] at hb; exact hn.2.2 hb

/-! ## Receivers and ports -/

theorem reportBadFrame_keepsLines (r : Receiver) (s : State) : KeepsLines s (reportBadFrame r s) := by
  rw [reportBadFrame_rest]; exact .of_same rfl

theorem receiveErrorOp_keepsLines (r : Receiver) (e : ErrorKind) (s : State) : KeepsLines s (receiveErrorOp r e s) := by
  have h : KeepsLines s (latch .frameError (s.setRx r { (s.rx.get r).settled with lastError := some e })) :=
    (latch_keepsLines _ _).after rfl
  exact h.trans (reportBadFrame_keepsLines r _)

theorem errorAtSample_keepsLines (r : Receiver) (e : DetectedError) (s : State) : KeepsLines s (errorAtSample r e s) :=
  (receiveErrorOp_keepsLines _ _ _).after rfl

theorem settle_keepsLines (r : Receiver) (s : State) : KeepsLines s (settle r s) := .of_same rfl

theorem resolve_keepsLines (sel : Fin Config.channels → Bool) (s : State) : KeepsLines s (resolve sel s) := by
  have h : KeepsLines s (resolveQuiet sel s) := .of_same rfl
  unfold resolve; dsimp only; split
  · exact h.trans (latch_keepsLines _ _)
  · exact h

theorem goodFrame_keepsLines (p : Port) (s : State) : KeepsLines s (goodFrame p s) := by
  unfold goodFrame; dsimp only; split
  · exact (latch_keepsLines _ _).after rfl
  · exact .of_same rfl

theorem acceptFrame_keepsLines (p : Port) (f : LevelFrame) (s : State) : KeepsLines s (acceptFrame p f s) :=
  ((goodFrame_keepsLines p (s.setPort p _)).after rfl).trans ((resolve_keepsLines _ (moveOwners p _ _)).after rfl)

theorem onLevelA_keepsLines (f : LevelFrame) (s : State) : KeepsLines s (onLevelA f s) := by
  unfold onLevelA levelAtA
  repeat' split
  · exact errorAtSample_keepsLines _ _ s
  · exact (settle_keepsLines _ s).trans (acceptFrame_keepsLines _ _ _)
  · exact (settle_keepsLines _ s).trans (latch_keepsLines _ _)
  · exact (settle_keepsLines _ s).trans (forwardPath_keepsLines _ _)

theorem onLevelB_keepsLines (f : LevelFrame) (s : State) : KeepsLines s (onLevelB f s) := by
  unfold onLevelB levelAtB
  repeat' split
  · exact errorAtSample_keepsLines _ _ s
  · exact (settle_keepsLines _ s).trans (acceptFrame_keepsLines _ _ _)
  · exact settle_keepsLines _ s

/-! ## Requests -/

/-- Carrying a command out changes nothing that the lines serve, but that a RESTART empties it. -/
def CarryKeepsLines (carry : State → Carried) : Prop := ∀ s, KeepsLines s (carry s).state

theorem answer_keepsLines (h : RequestHeader) (code : Byte) (r : Reply) (s : State) :
    KeepsLines s (answer h code r s) := (joinQueue_keepsLines _ _ _).after rfl

theorem finishRequest_keepsLines (h : RequestHeader) (code : Byte) (c : Carried) :
    KeepsLines c.state (finishRequest h code c) :=
  ((latchFlags_keepsLines _ _).trans (answer_keepsLines _ _ _ _)).trans (offerNotices_keepsLines _ _)

theorem addressed_keepsLines {carry : State → Carried} (hc : CarryKeepsLines carry) (h : RequestHeader) (code : Byte)
    (s : State) : KeepsLines s (addressed h code carry s) := by
  unfold addressed
  repeat' split
  · exact (joinQueue_keepsLines _ _ _).after rfl
  · exact latch_keepsLines _ s
  · exact (hc s).trans (finishRequest_keepsLines _ _ _)
  · exact latch_keepsLines _ s

theorem handOn_keepsLines (h : RequestHeader) (code : Byte) (args : List Byte) (s : State) :
    KeepsLines s (handOn h code args s) := by
  unfold handOn; split
  · exact forwardPath_keepsLines _ _
  · exact .refl s

theorem carryBroadcast_keepsLines {carry : State → Carried} (hc : CarryKeepsLines carry) (s : State) :
    KeepsLines s (carryBroadcast carry s) := (hc s).trans (latchAll_keepsLines _ _)

theorem broadcast_keepsLines {carry : State → Carried} (hc : CarryKeepsLines carry) (form : BroadcastForm)
    (h : RequestHeader) (code : Byte) (args : List Byte) (s : State) :
    KeepsLines s (broadcast form h code args carry s) := by
  have carriedThenOn : ∀ s, KeepsLines s (handOn h code args (carryBroadcast carry s)) :=
    fun s => (carryBroadcast_keepsLines hc s).trans (handOn_keepsLines _ _ _ _)
  have onThenCarried : ∀ s, KeepsLines s (carryBroadcast carry (handOn h code args s)) :=
    fun s => (handOn_keepsLines _ _ _ _).trans (carryBroadcast_keepsLines hc _)
  cases form with
  | ignored => exact handOn_keepsLines _ _ _ _
  | restarts => exact carriedThenOn s
  | acts =>
    unfold broadcast broadcastActing State.choose
    dsimp only
    repeat' split
    · exact (carriedThenOn _).after rfl
    · exact (onThenCarried _).after rfl
    · exact carriedThenOn s

theorem onRequest_keepsLines {carry : State → Carried} (hc : CarryKeepsLines carry) (form : BroadcastForm)
    (h : RequestHeader) (code : Byte) (args : List Byte) (s : State) :
    KeepsLines s (onRequest form h code args carry s) := by
  unfold onRequest takeRequest
  repeat' split
  · exact errorAtSample_keepsLines _ _ s
  · exact (settle_keepsLines _ s).trans (addressed_keepsLines hc _ _ _)
  · exact (settle_keepsLines _ s).trans (broadcast_keepsLines hc _ _ _ _ _)
  · exact (settle_keepsLines _ s).trans (handOn_keepsLines _ _ _ _)

theorem guardReserved_keepsLines {carry : State → Carried} (hc : CarryKeepsLines carry) (h : RequestHeader) :
    CarryKeepsLines (guardReserved h carry) := by
  intro s; unfold guardReserved; split
  · exact hc s
  · exact .refl s

theorem carryForce_keepsLines (first count : BitVec 16) (level : Level) (profile : Byte) :
    CarryKeepsLines (carryForce first count level profile) := by
  intro s; unfold carryForce; repeat' split
  all_goals exact .of_same rfl

theorem carryRelease_keepsLines (first count : BitVec 16) : CarryKeepsLines (carryRelease first count) := by
  intro s; unfold carryRelease; split <;> exact .of_same rfl

theorem carrySaveScene_keepsLines (scene : Byte) : CarryKeepsLines (carrySaveScene scene) := by
  intro s; unfold carrySaveScene; split <;> exact .of_same rfl

theorem carryOpen_keepsLines (o : SessionOwner) : CarryKeepsLines (carryOpen o) := by
  intro s; unfold carryOpen; repeat' split
  all_goals exact .of_same rfl

theorem writeCarried_keepsLines (o : SessionOwner) (t : TableName) (start : Nat) (entries : List (List Byte))
    (s : State) : KeepsLines s (writeCarried o t start entries s).state := by
  cases t <;> exact .of_same rfl

theorem carryWrite_keepsLines (o : SessionOwner) (table : Byte) (index : BitVec 16) (count : Byte)
    (entries : List Byte) : CarryKeepsLines (carryWrite o table index count entries) := by
  intro s; unfold carryWrite; repeat' split
  any_goals exact .refl s
  exact writeCarried_keepsLines _ _ _ _ _

theorem carryCommit_keepsLines (o : SessionOwner) (expected : Crc32) : CarryKeepsLines (carryCommit o expected) := by
  intro s; unfold carryCommit; split <;> exact .of_same rfl

theorem carryAbort_keepsLines (o : SessionOwner) : CarryKeepsLines (carryAbort o) := by
  intro s; unfold carryAbort; repeat' split
  all_goals exact .of_same rfl

/-- A warm restart leaves no frame waiting, and none called SENDING but the output frame (R17, R121, R145). -/
theorem carryRestart_keepsLines : CarryKeepsLines carryRestart := by
  intro s
  obtain ⟨htx, hq, hf, hr, ho, -⟩ := warmRestart_links s
  show KeepsLines s (warmRestart s)
  unfold KeepsLines State.NothingWaitsForFree State.LinesAgree
  rw [htx, hq, hf, hr, ho]
  exact ⟨fun h => ⟨fun hd => ⟨(h.1 hd).1, rfl⟩, fun _ => ⟨rfl, rfl⟩, fun _ => rfl⟩,
    fun h => ⟨h.1, by simp, by simp⟩⟩

/-- A completing frame, whatever command it is (R13). -/
theorem runFrameCommand_keepsLines (i : Instr) (s : State) : KeepsLines s (runFrameCommand i s) := by
  have request : ∀ {carry : State → Carried}, CarryKeepsLines carry → ∀ form h code args,
      KeepsLines s (onRequest form h code args (guardReserved h carry) s) :=
    fun hc form h code args => onRequest_keepsLines (guardReserved_keepsLines hc h) form h code args s
  have reads : ∀ {carry : State → Carried}, (∀ s, (carry s).state = s) → CarryKeepsLines carry :=
    fun hc s => by rw [hc]; exact .refl s
  cases i <;> simp only [runFrameCommand]
  case levelFrameA f => exact onLevelA_keepsLines f s
  case levelFrameB f => exact onLevelB_keepsLines f s
  case forwardFrame f => exact (settle_keepsLines _ s).trans (forwardPath_keepsLines _ _)
  case relayFrame f => exact (settle_keepsLines _ s).trans (relayPath_keepsLines _ _)
  case bFrameDiscarded f => exact settle_keepsLines _ s
  case requestNotTaken h code args => exact (settle_keepsLines _ s).trans (handOn_keepsLines _ _ _ _)
  case badCommand h code args => exact onRequest_keepsLines (fun s => .refl s) _ _ _ _ _
  case identify h extra => exact request (reads fun _ => rfl) _ _ _ _
  case readStatus h extra => exact request (reads fun _ => rfl) _ _ _ _
  case readChannels h f c e => exact request (reads (carryReadChannels_state f c)) _ _ _ _
  case readInputs h p f c e => exact request (reads (carryReadInputs_state p f c)) _ _ _ _
  case readTable h b t i c e => exact request (reads (carryReadTable_state b t i c)) _ _ _ _
  case openSession h t e => exact request (carryOpen_keepsLines _) _ _ _ _
  case writeTable h t tb i c e => exact request (carryWrite_keepsLines _ _ _ _ _) _ _ _ _
  case commit h t x e => exact request (carryCommit_keepsLines _ _) _ _ _ _
  case abortSession h t e => exact request (carryAbort_keepsLines _) _ _ _ _
  case force h f c l p e => exact request (carryForce_keepsLines _ _ _ _) _ _ _ _
  case release h f c e => exact request (carryRelease_keepsLines _ _) _ _ _ _
  case saveScene h sc e => exact request (carrySaveScene_keepsLines _) _ _ _ _
  case ackConditions h k e => exact request (fun _ => .of_same rfl) _ _ _ _
  case restart h e => exact request carryRestart_keepsLines _ _ _ _
  all_goals exact .refl s

theorem completeFrame_keepsLines (r : Receiver) (f : Frame) (s : State) : KeepsLines s (completeFrame r f s) := by
  unfold completeFrame; split
  · exact errorAtSample_keepsLines _ _ s
  · exact runFrameCommand_keepsLines _ s

/-! ## The transmitters' own events -/

/-- The completion on D: the line goes to GAP, and the output frame is SENDING no more (R15, R112). -/
theorem transmitCompleteD_keepsLines (n k : Nat) (s : State) :
    KeepsLines s (outputCompleted ((s.reach n).setTx .dTx (.gap (some k)))) := by
  have hout : ∀ t : State, ∃ o, outputCompleted t = { t with output := o } ∧ ∀ f, o ≠ .sending f := by
    intro t; unfold outputCompleted
    split
    · exact ⟨.empty, rfl, nofun⟩
    · rename_i h; exact ⟨t.output, rfl, by simp [h]⟩
    · rename_i g h; exact ⟨t.output, rfl, by simp [h]⟩
  obtain ⟨o, e, ho⟩ := hout ((s.reach n).setTx .dTx (.gap (some k)))
  rw [e]
  refine ⟨fun h => ⟨nofun, h.2⟩, fun h => ⟨fun f hf => absurd hf (ho f), h.2.1, fun p d hd hs => ?_⟩⟩
  obtain ⟨m, hm⟩ := h.2.2 p d hd hs
  exact ⟨m, by cases p <;> exact hm⟩

/-- With the return line of a port in GAP, the entry that it sent leaves, and the rest is as it was (R138). -/
theorem leaves_keepsLines {p : Port} {s : State} {q : List QueueEntry} {x : Option Nat}
    (hq : q = s.queue ∧ s.queue.countP (·.sendsOn p) = 0 ∨
      ∃ l e r, s.queue = l ++ e :: r ∧ e.sendsOn p = true ∧ q = l ++ r) :
    KeepsLines s { s with tx := s.tx.set (returnTx p) (.gap x), queue := q } := by
  have hsub : q.Sublist s.queue := by
    rcases hq with ⟨rfl, -⟩ | ⟨l, e, r, hs, -, rfl⟩
    · exact List.Sublist.refl _
    · rw [hs]; exact (List.sublist_cons_self e r).append_left l
  have hle : ∀ f, q.countP f ≤ s.queue.countP f := fun f => hsub.countP_le
  have hother : ∀ p' ≠ p, (s.tx.set (returnTx p) (.gap x)).get (returnTx p') = s.tx.get (returnTx p') := by
    intro p' hp; rw [PerTx.get_set, if_neg (by cases p <;> cases p' <;> simp_all [returnTx])]
  refine ⟨fun h => ⟨fun hd => ?_, fun ha => ?_, fun hb => ?_⟩,
    fun h => ⟨fun f hf => ?_, fun p' => ?_, fun p' e he hs => ?_⟩⟩
  · exact h.1 (by cases p <;> exact hd)
  · cases p
    · cases ha
    · exact ⟨(h.2.1 ha).1, Nat.le_zero.mp ((h.2.1 ha).2 ▸ hle _)⟩
  · cases p
    · exact Nat.le_zero.mp (h.2.2 hb ▸ hle _)
    · cases hb
  · obtain ⟨n, hn⟩ := h.1 f hf
    exact ⟨n, by cases p <;> exact hn⟩
  · exact (hle _).trans (h.2.1 p')
  · by_cases hp : p' = p
    · subst hp
      have hzero : q.countP (·.sendsOn p') = 0 := by
        rcases hq with ⟨rfl, hz⟩ | ⟨l, d, r, hs', hd, rfl⟩
        · exact hz
        · have := h.2.1 p'
          rw [hs'] at this
          simp only [List.countP_append, List.countP_cons, hd, if_true] at this ⊢
          omega
      exact absurd hs (List.countP_eq_zero.mp hzero e he)
    · obtain ⟨n, hn⟩ := h.2.2 p' e (hsub.mem he) hs
      exact ⟨n, (hother p' hp).trans hn⟩

/-- The completion on a return line: the line goes to GAP, its entry leaves, and a pending notice may join (R15, R138,
R190). -/
theorem transmitCompleteReturn_keepsLines (p : Port) (n k : Nat) (s : State) :
    KeepsLines s (entryCompleted p ((s.reach n).setTx (returnTx p) (.gap (some k)))) := by
  unfold entryCompleted
  split
  · rename_i q hq
    exact ((leaves_keepsLines (x := some k) (s := s.reach n) (.inr (removeSending_some hq))).after rfl).trans
      (drainPending_keepsLines _)
  · rename_i hq
    exact (leaves_keepsLines (x := some k) (s := s.reach n) (.inl ⟨rfl, removeSending_none.mp hq⟩)).after rfl

theorem transmitCompleteOp_keepsLines (x : Transmitter) (s : State) : KeepsLines s (transmitCompleteOp x s) := by
  unfold transmitCompleteOp
  split
  · cases x
    · exact transmitCompleteD_keepsLines _ _ s
    · exact transmitCompleteReturn_keepsLines .a _ _ s
    · exact transmitCompleteReturn_keepsLines .b _ _ s
  all_goals exact .refl s

/-- A transmitter in GAP called nothing SENDING, so it may go FREE (R15). -/
theorem freed_linesAgree {x : Transmitter} {t : Option Nat} {n : Nat} {s : State} (hx : s.tx.get x = .gap t)
    (h : s.LinesAgree) : ((s.reach n).setTx x .free).LinesAgree := by
  have hget : ∀ y f m, s.tx.get y = .sending f m → (s.tx.set x .free).get y = .sending f m := by
    intro y f m hy
    rw [PerTx.get_set, if_neg (by rintro rfl; rw [hx] at hy; cases hy), hy]
  refine ⟨fun f hf => ?_, h.2.1, fun p e he hs => ?_⟩
  · obtain ⟨m, hm⟩ := h.1 f hf
    exact ⟨m, hget .dTx f m hm⟩
  · obtain ⟨m, hm⟩ := h.2.2 p e he hs
    exact ⟨m, hget _ _ m hm⟩

theorem gapEndOp_keepsLines (x : Transmitter) (s : State) : KeepsLines s (gapEndOp x s) := by
  unfold gapEndOp
  split
  · rename_i n hx
    set t := (s.reach n).setTx x .free with ht
    have ha : s.LinesAgree → t.LinesAgree := freed_linesAgree hx
    cases x
    · refine ⟨fun h => ⟨serveD_leaves_nothing t, ?_⟩, fun h => serveD_linesAgree (ha h)⟩
      rw [show serve .dTx t = serveD t from rfl, serveD_frame]; exact h.2
    · refine ⟨fun h => ⟨?_, serveA_leaves_nothing t, fun hb => ?_⟩, fun h => serveA_linesAgree (ha h)⟩
      · rw [show serve .aReturnTx t = serveA t from rfl, serveA_frame]; exact h.1
      · refine (serveA_waits_b t).trans (h.2.2 ?_)
        rw [show serve .aReturnTx t = serveA t from rfl, serveA_frame] at hb; exact hb
    · refine ⟨fun h => ⟨?_, fun hb => ?_, serveB_leaves_nothing t⟩, fun h => serveB_linesAgree (ha h)⟩
      · rw [show serve .bReturnTx t = serveB t from rfl, serveB_frame]; exact h.1
      · rw [show serve .bReturnTx t = serveB t from rfl, serveB_frame] at hb ⊢
        obtain ⟨hr, hq⟩ := h.2.1 hb
        exact ⟨hr, (serveB_waits_a t).trans hq⟩
  all_goals exact .refl s

/-! ## Timers, session and output generator -/

theorem setPort_keepsLines (p : Port) (u : PortUnit) (s : State) : KeepsLines s (s.setPort p u) := .of_same rfl

theorem stateReport_keepsLines (p : Port) (s : State) : KeepsLines s (stateReport p s) := resolve_keepsLines _ s

theorem lossEvent_keepsLines (p : Port) (n : Nat) (s : State) : KeepsLines s (lossEvent p n s) := by
  unfold lossEvent
  dsimp only
  split
  · exact (setPort_keepsLines _ _ _).trans (stateReport_keepsLines _ _)
  · split
    · exact (((setPort_keepsLines _ _ _).trans (latch_keepsLines _ _)).trans (latch_keepsLines _ _)).trans
        (stateReport_keepsLines _ _)
    · exact ((setPort_keepsLines _ _ _).trans (latch_keepsLines _ _)).trans (stateReport_keepsLines _ _)
  all_goals exact setPort_keepsLines _ _ _

theorem lossExpiryOp_keepsLines (p : Port) (s : State) : KeepsLines s (lossExpiryOp p s) := by
  unfold lossExpiryOp; split
  · exact .refl s
  · exact (lossEvent_keepsLines p _ (s.reach _)).after rfl

theorem holdEvent_keepsLines (p : Port) (s : State) : KeepsLines s (holdEvent p s) := by
  unfold holdEvent
  dsimp only
  split
  · exact ((setPort_keepsLines _ _ _).trans (latch_keepsLines _ _)).trans (stateReport_keepsLines _ _)
  all_goals exact setPort_keepsLines _ _ _

theorem holdExpiryOp_keepsLines (p : Port) (s : State) : KeepsLines s (holdExpiryOp p s) := by
  unfold holdExpiryOp; split
  · exact .refl s
  · exact (holdEvent_keepsLines p (s.reach _)).after rfl

theorem sessionExpiryOp_keepsLines (s : State) : KeepsLines s (sessionExpiryOp s) := by
  unfold sessionExpiryOp; split
  · exact (latch_keepsLines _ _).after rfl
  all_goals exact .refl s

theorem verificationCompleteOp_keepsLines (s : State) : KeepsLines s (verificationCompleteOp s) := by
  unfold verificationCompleteOp
  dsimp only
  repeat' split
  · exact .of_same rfl
  · exact (latch_keepsLines _ _).after rfl
  all_goals exact .refl s

theorem copyCompleteOp_keepsLines (s : State) : KeepsLines s (copyCompleteOp s) := by
  unfold copyCompleteOp; split <;> exact .of_same rfl

theorem fadeTickOp_keepsLines (s : State) : KeepsLines s (fadeTickOp s) := by
  unfold fadeTickOp; dsimp only; repeat' split
  all_goals exact .of_same rfl

theorem silenceIfAltered_keepsLines (old : ConfigRecord) (p : Port) (s : State) :
    KeepsLines s (silenceIfAltered old p s) := by
  rw [silenceIfAltered_rest]; exact .of_same rfl

theorem changeover_keepsLines (k : Crc32) (s : State) : KeepsLines s (changeover k s) := by
  have tick : ∀ s, KeepsLines s (tickWithin s) := fun s => by rw [tickWithin_rest]; exact .of_same rfl
  unfold changeover
  dsimp only
  exact ((((latch_keepsLines .commitDone (exchangeBanks k s)).after rfl).trans (tick _)).trans
    ((silenceIfAltered_keepsLines _ _ _).trans (silenceIfAltered_keepsLines _ _ _))).trans
    ((resolve_keepsLines _ (clearOwners _)).after rfl)

/-- The output frame that a snapshot offers is taken by D-tx in FREE (R109, R113). -/
theorem takeSnapshot_keepsLines (s : State) : KeepsLines s (takeSnapshot s) := by
  have h : KeepsLines s (serveD { s with output := .waiting s.outputSnapshot, nextSequence := s.nextSequence + 1 }) :=
    serveD_keepsLines rfl nofun
  unfold takeSnapshot toldOfSnapshot
  split
  · exact h.trans (changeover_keepsLines _ _)
  all_goals exact h

theorem refreshExpiryOp_keepsLines (s : State) : KeepsLines s (refreshExpiryOp s) := by
  unfold refreshExpiryOp
  split
  · exact .refl s
  · have restarted : ∀ n t, KeepsLines t (restartRefresh n t) := fun _ _ => .of_same rfl
    dsimp only
    split
    · exact ((takeSnapshot_keepsLines (s.reach _)).after rfl).trans (restarted _ _)
    all_goals exact .of_same rfl

/-! ## Characters and idle -/

theorem interFrameIdleOp_keepsLines (r : Receiver) (s : State) : KeepsLines s (interFrameIdleOp r s) := by
  unfold interFrameIdleOp; dsimp only; split <;> exact .of_same rfl

theorem truncatedOp_keepsLines (r : Receiver) (s : State) : KeepsLines s (truncatedOp r s) := by
  unfold truncatedOp; dsimp only; split
  · exact (receiveErrorOp_keepsLines _ _ _).after rfl
  · exact .refl s

theorem goodCharacterOp_keepsLines (r : Receiver) (b : Byte) (s : State) : KeepsLines s (goodCharacterOp r b s) := by
  unfold goodCharacterOp receiveByte
  dsimp only
  repeat' split
  all_goals first
    | exact errorAtSample_keepsLines _ _ s
    | exact completeFrame_keepsLines _ _ s
    | exact .of_same rfl

theorem badCharacterOp_keepsLines (r : Receiver) (s : State) : KeepsLines s (badCharacterOp r s) := by
  unfold badCharacterOp
  dsimp only
  split
  · exact .of_same rfl
  · exact .of_same rfl
  · exact errorAtSample_keepsLines _ _ s

theorem characterOp_keepsLines (r : Receiver) (w : BitVec 10) (s : State) : KeepsLines s (characterOp r w s) := by
  have before : ∀ n m s, KeepsLines s ((huntBefore r n (truncateBefore r n s)).reach m) := by
    intro n m s
    have ht : KeepsLines s (truncateBefore r n s) := by
      unfold truncateBefore; repeat' split
      · exact truncatedOp_keepsLines r s
      all_goals exact .refl s
    have hh : ∀ s, KeepsLines s (huntBefore r n s) := by
      intro s; unfold huntBefore; repeat' split
      · exact interFrameIdleOp_keepsLines r s
      all_goals exact .refl s
    exact (ht.trans (hh _)).trans (.of_same rfl)
  unfold characterOp takeCharacter
  dsimp only
  repeat' split
  · exact .refl s
  · exact .refl s
  · exact (before _ _ s).trans (goodCharacterOp_keepsLines _ _ _)
  · exact (before _ _ s).trans (badCharacterOp_keepsLines _ _)

/-! ## Commands and steps -/

/-- While RESET is released, a command that is neither a reset nor a PAUSE edge keeps the lines. -/
theorem exec_keepsLines {c : Instr} {s t : State} (h1 : c ≠ .hardReset) (h2 : ∀ x a b d, c ≠ .resetRelease x a b d)
    (h3 : c ≠ .pauseAssert) (h4 : c ≠ .pauseRelease) (h : exec c s = .next t) : KeepsLines s t := by
  have w : ∀ {f : State → State}, KeepsLines s (f s) → whenRunning f s = .next t → KeepsLines s t := by
    intro f hf hh
    rcases whenRunning_cases hh with rfl | ⟨-, rfl⟩
    · exact .refl _
    · exact hf
  cases c <;> simp only [exec] at h
  case hardReset => exact absurd rfl h1
  case resetRelease => exact absurd rfl (h2 _ _ _ _)
  case pauseAssert => exact absurd rfl h3
  case pauseRelease => exact absurd rfl h4
  case fadeTick => exact w (fadeTickOp_keepsLines s) h
  case refreshExpiry => exact w (refreshExpiryOp_keepsLines s) h
  case interFrameIdle r => exact w (interFrameIdleOp_keepsLines r s) h
  case truncated r => exact w (truncatedOp_keepsLines r s) h
  case receiveError r e =>
    refine w ?_ h; unfold receiveErrorEvent; split
    · exact .refl s
    · exact errorAtSample_keepsLines _ _ _
  case lineReturnHigh r => refine w ?_ h; unfold lineReturnHighOp; dsimp only; split <;> exact .of_same rfl
  case characterReceived r x => exact w (characterOp_keepsLines r x s) h
  case lossExpiry p => exact w (lossExpiryOp_keepsLines p s) h
  case holdExpiry p => exact w (holdExpiryOp_keepsLines p s) h
  case sessionExpiry => exact w (sessionExpiryOp_keepsLines s) h
  case verificationComplete => exact w (verificationCompleteOp_keepsLines s) h
  case copyComplete => exact w (copyCompleteOp_keepsLines s) h
  case transmitComplete x => exact w (transmitCompleteOp_keepsLines x s) h
  case gapEnd x => exact w (gapEndOp_keepsLines x s) h
  case forwardFrame | relayFrame | bFrameDiscarded | requestNotTaken | badCommand =>
    exact w (completeFrame_keepsLines _ _ s) h
  case levelFrameA f => exact w (runFrameCommand_keepsLines (.levelFrameA f) s) h
  case levelFrameB f => exact w (runFrameCommand_keepsLines (.levelFrameB f) s) h
  case identify h' e => exact w (runFrameCommand_keepsLines (.identify h' e) s) h
  case readStatus h' e => exact w (runFrameCommand_keepsLines (.readStatus h' e) s) h
  case readChannels h' f c e => exact w (runFrameCommand_keepsLines (.readChannels h' f c e) s) h
  case readInputs h' p f c e => exact w (runFrameCommand_keepsLines (.readInputs h' p f c e) s) h
  case readTable h' b t' i c e => exact w (runFrameCommand_keepsLines (.readTable h' b t' i c e) s) h
  case openSession h' t' e => exact w (runFrameCommand_keepsLines (.openSession h' t' e) s) h
  case writeTable h' t' tb i c e => exact w (runFrameCommand_keepsLines (.writeTable h' t' tb i c e) s) h
  case commit h' t' x e => exact w (runFrameCommand_keepsLines (.commit h' t' x e) s) h
  case abortSession h' t' e => exact w (runFrameCommand_keepsLines (.abortSession h' t' e) s) h
  case force h' f c l p e => exact w (runFrameCommand_keepsLines (.force h' f c l p e) s) h
  case release h' f c e => exact w (runFrameCommand_keepsLines (.release h' f c e) s) h
  case saveScene h' sc e => exact w (runFrameCommand_keepsLines (.saveScene h' sc e) s) h
  case ackConditions h' k e => exact w (runFrameCommand_keepsLines (.ackConditions h' k e) s) h
  case restart h' e => exact w (runFrameCommand_keepsLines (.restart h' e) s) h

/-- Commands other than the resets and the PAUSE edges do nothing while RESET is asserted (R14, R17, R179). -/
theorem exec_underReset {c : Instr} {s : State} (hr : s.inReset = true) (h1 : c ≠ .hardReset)
    (h2 : ∀ x a b d, c ≠ .resetRelease x a b d) (h3 : c ≠ .pauseAssert) (h4 : c ≠ .pauseRelease) :
    exec c s = .next s := by
  have w : ∀ f : State → State, whenRunning f s = .next s := fun f => if_pos hr
  cases c
  case hardReset => exact absurd rfl h1
  case resetRelease => exact absurd rfl (h2 _ _ _ _)
  case pauseAssert => exact absurd rfl h3
  case pauseRelease => exact absurd rfl h4
  all_goals exact w _

/-- With nothing called SENDING and every transmitter in GAP, the lines agree with what they serve. -/
theorem gaps_keepLines {s : State} (hg : ∀ x, ∃ n, s.tx.get x = .gap n) :
    s.NothingWaitsForFree ∧ (s.output = .empty → s.queue = [] → s.LinesAgree) := by
  have hf : ∀ x, s.tx.get x ≠ .free := fun x => by obtain ⟨n, hn⟩ := hg x; rw [hn]; nofun
  exact ⟨⟨fun h => absurd h (hf .dTx), fun h => absurd h (hf .aReturnTx), fun h => absurd h (hf .bReturnTx)⟩,
    fun ho hq => ⟨by rw [ho]; nofun, by simp [hq], by simp [hq]⟩⟩

theorem heldInReset_gaps (s : State) (x : Transmitter) : ∃ n, (heldInReset s).tx.get x = .gap n := by
  cases x <;> exact ⟨none, rfl⟩

/-- The part at the release of RESET, before PAUSE is taken (R14, R17, R68, R107, R127). -/
def releasedPart (straps : BitVec 6) (aHigh bHigh dHigh : Bool) (s : State) : State :=
  { s with
    inReset := false
    rx := ⟨releasedRx s.now aHigh, releasedRx s.now bHigh, releasedRx s.now dHigh⟩
    tx := ⟨.gap (some (s.now + Config.gapClocks)), .gap (some (s.now + Config.gapClocks)),
      .gap (some (s.now + Config.gapClocks))⟩
    node := nodeOfStraps straps
    tickAt := some (s.now + s.tickClocks)
    refreshAt := some (s.now + s.refreshClocks) }

theorem releaseReset_eq (straps : BitVec 6) (a b d : Bool) (s : State) :
    releaseReset straps a b d s =
      if s.pause then latch .paused (releasedPart straps a b d s) else releasedPart straps a b d s := rfl

theorem releasedPart_gaps (straps : BitVec 6) (a b d : Bool) (s : State) (x : Transmitter) :
    ∃ n, (releasedPart straps a b d s).tx.get x = .gap n := by
  cases x <;> exact ⟨_, rfl⟩

/-- What O53 says of a command: the two properties, each by itself. -/
def KeepsAgreement (s t : State) : Prop :=
  (s.NothingWaitsForFree → t.NothingWaitsForFree) ∧ (s.SendingIsOnLine → t.SendingIsOnLine)

theorem KeepsLines.agreement {s t : State} (h : KeepsLines s t) (hr : t.inReset = false) : KeepsAgreement s t :=
  ⟨h.1, fun hs => ⟨fun hi => absurd hi (by simp [hr]), h.2 hs.2⟩⟩

/-- A hard reset leaves nothing waiting and nothing SENDING (R17, R120, R148). -/
theorem heldInReset_agreement (s : State) : KeepsAgreement s (heldInReset s) := by
  obtain ⟨hn, ha⟩ := gaps_keepLines (heldInReset_gaps s)
  exact ⟨fun _ => hn, fun _ => ⟨fun _ => ⟨rfl, rfl⟩, ha rfl rfl⟩⟩

/-- The transmitters start in GAP, with nothing called SENDING under RESET (R14, R17). -/
theorem releaseReset_agreement (straps : BitVec 6) (a b d : Bool) {s : State} (hr : s.inReset = true) :
    KeepsAgreement s (releaseReset straps a b d s) := by
  set u := releasedPart straps a b d s with hu
  obtain ⟨hn, ha⟩ := gaps_keepLines (releasedPart_gaps straps a b d s)
  have hk : KeepsLines u (releaseReset straps a b d s) ∧ (releaseReset straps a b d s).inReset = false := by
    rw [releaseReset_eq]; split
    · exact ⟨latch_keepsLines _ _, (latch_noticed _ _).inReset⟩
    · exact ⟨.refl u, rfl⟩
  refine ⟨fun _ => hk.1.1 hn, fun hs => ⟨fun hi => absurd hi (by simp [hk.2]), hk.1.2 ?_⟩⟩
  obtain ⟨ho, hq⟩ := hs.1 hr
  exact ha ho hq

theorem execPauseAssert_agreement {s t : State} (h : execPauseAssert s = .next t) : KeepsAgreement s t := by
  unfold execPauseAssert at h
  split at h
  · obtain rfl : s = t := by injection h
    exact ⟨id, id⟩
  · split at h
    · obtain rfl : { s with pause := true } = t := by injection h
      exact ⟨id, id⟩
    · rename_i hr
      obtain rfl : latch .paused { s with pause := true } = t := by injection h
      have hk : KeepsLines s (latch .paused { s with pause := true }) := (latch_keepsLines _ _).after rfl
      exact hk.agreement ((latch_noticed _ _).inReset.trans (by simpa using hr))

/-- Every command keeps that nothing waits for a FREE transmitter, and that what is called SENDING is on its line. -/
theorem exec_agreement {c : Instr} {s t : State} (h : exec c s = .next t) : KeepsAgreement s t := by
  by_cases h1 : c = .hardReset
  · subst h1
    obtain rfl : heldInReset s = t := by injection h
    exact heldInReset_agreement s
  by_cases h2 : ∃ x a b d, c = .resetRelease x a b d
  · obtain ⟨x, a, b, d, rfl⟩ := h2
    simp only [exec, execResetRelease] at h
    split at h
    · rename_i hr
      obtain rfl : releaseReset x a b d s = t := by injection h
      exact releaseReset_agreement x a b d hr
    · obtain rfl : s = t := by injection h
      exact ⟨id, id⟩
  have h2 : ∀ x a b d, c ≠ .resetRelease x a b d := fun x a b d e => h2 ⟨x, a, b, d, e⟩
  by_cases h3 : c = .pauseAssert
  · subst h3; exact execPauseAssert_agreement h
  by_cases h4 : c = .pauseRelease
  · subst h4
    obtain rfl : { s with pause := false } = t := by injection h
    exact ⟨id, id⟩
  by_cases hr : s.inReset = true
  · obtain rfl : s = t := by rw [exec_underReset hr h1 h2 h3 h4] at h; injection h
    exact ⟨id, id⟩
  · have hf := exec_fixed h1 h2 h3 h4 h
    simp only [Fixed, Prod.mk.injEq] at hf
    exact (exec_keepsLines h1 h2 h3 h4 h).agreement (hf.1.trans (by simpa using hr))

/-- A part left to itself lets the clock advance or lets a command wait: nothing else. -/
theorem idle_rest (s : State) :
    idle s = { s with now := (idle s).now, choices := (idle s).choices, pending := (idle s).pending } := by
  unfold idle State.choose; split <;> rfl

/-- A property that every command keeps, and that neither the clock nor the waiting commands matter to, every step keeps. -/
theorem keptByEveryStep_of_exec {P : State → Prop}
    (hp : ∀ (s : State) n k q, P s → P { s with now := n, choices := k, pending := q })
    (he : ∀ (c : Instr) (s t : State), P s → exec c s = .next t → P t) : KeptByEveryStep P := by
  intro s t hs h
  unfold step at h
  split at h
  · exact he _ _ _ (hp s s.now s.choices _ hs) h
  · obtain rfl : idle s = t := by injection h
    rw [idle_rest]; exact hp s _ _ _ hs

/-- Settles O53: each arbiter leaves a FREE transmitter nothing to take and takes what it calls SENDING, and every command
is made of operations that keep both. -/
theorem transmittersAgreeWithTheirSources : Obligations.TransmittersAgreeWithTheirSources :=
  ⟨keptByEveryStep_of_exec (fun _ _ _ _ h => h) fun _ _ _ h he => (exec_agreement he).1 h,
    keptByEveryStep_of_exec (fun _ _ _ _ h => h) fun _ _ _ h he => (exec_agreement he).2 h⟩

end Sys2Proof.Machine
end

section
/-! The two resets, commands without an event, and the default program set (O3, O4, O5, O51). -/

namespace Sys2Proof.Machine

/-! ## The default program set -/

@[simp] theorem default_map (i : Fin Config.channels) : Bank.default.map[i] = MapEntry.default i.val :=
  Table.getElem_mapFin _ _ i.val i.isLt

/-- A present field names the port and the slot of its bits (R211). -/
theorem decodeSource_default (i : Fin Config.channels) :
    decodeSource (0x8000 + BitVec.ofNat 16 i.val) = some ⟨.a, i⟩ := by
  have hi : i.val < 384 := i.isLt
  have hn : (0x8000#16 + BitVec.ofNat 16 i.val).toNat = 32768 + i.val := by
    rw [BitVec.toNat_add, BitVec.toNat_ofNat, BitVec.toNat_ofNat]; omega
  have hp : sourcePresent (0x8000#16 + BitVec.ofNat 16 i.val) = true := by
    unfold sourcePresent
    rw [BitVec.getLsbD, hn, Nat.testBit_eq_decide_div_mod_eq, decide_eq_true_eq]; omega
  have hs : ((0x8000#16 + BitVec.ofNat 16 i.val).extractLsb' 0 9).toNat = i.val := by
    rw [BitVec.extractLsb'_toNat, hn, Nat.shiftRight_eq_div_pow]; omega
  have hq : (0x8000#16 + BitVec.ofNat 16 i.val).extractLsb' 9 6 = 0 := by
    apply BitVec.eq_of_toNat_eq
    rw [BitVec.extractLsb'_toNat, hn, Nat.shiftRight_eq_div_pow]
    simp only [BitVec.ofNat_eq_ofNat, BitVec.toNat_ofNat]; omega
  show decodeSource (0x8000#16 + BitVec.ofNat 16 i.val) = _
  unfold decodeSource
  rw [if_pos hp, dif_pos (by rw [hs]; exact hi), if_pos hq]
  simp only [hs]

/-- A field of 0 is an absent source (R211). -/
theorem decodeSource_zero : sourcePresent 0 = false ∧ decodeSource 0 = none := by decide

/-- The two source fields of a default entry (R154). -/
theorem default_sources (i : Nat) :
    (MapEntry.default i).source1 = 0x8000 + BitVec.ofNat 16 i ∧ (MapEntry.default i).source2 = 0 := ⟨rfl, rfl⟩

/-- The default set is the one of R52, R152 and R154. -/
theorem default_holdsDefaults : HoldsDefaults Bank.default := by
  refine ⟨rfl, fun i => ?_, fun i => ?_, fun i k => ?_⟩
  · rw [default_map]
    refine ⟨rfl, rfl, rfl, rfl, ?_, ?_⟩
    · unfold MapEntry.sources
      rw [(default_sources _).1, (default_sources _).2, decodeSource_default, decodeSource_zero.2]
    · have hcodes : (1#3 ++ 0#5) = 0x20#8 ∧ (0#4 ++ 0#3 ++ 0#1) = 0x00#8 ∧ bytes16 0 = [0x00, 0x00] := by decide
      show [1#3 ++ 0#5, 0#4 ++ 0#3 ++ 0#1] ++ bytes16 (0x8000 + BitVec.ofNat 16 i.val) ++ bytes16 0 = _
      rw [hcodes.1, hcodes.2.1, hcodes.2.2, BitVec.ofNat_add]
      rfl
  · exact Vector.getElem_replicate i.isLt
  · have hc : Bank.default.curves[i] = defaultCurve := Vector.getElem_replicate i.isLt
    have hk : defaultCurve[k] = if k.val = 16 then 65535 else BitVec.ofNat 16 (4096 * k.val) :=
      Table.getElem_mapFin _ _ k.val k.isLt
    rw [hc, hk]
    split
    · rfl
    · rw [BitVec.toNat_ofNat]; omega

/-- No entry is found exactly when none satisfies the predicate. -/
theorem findFrom_none {α β : Type} {p : α → Option β} {l : List α} (h : ∀ a ∈ l, p a = none) (i : Nat) :
    Table.findFrom p i l = none := by
  induction l generalizing i with
  | nil => rfl
  | cons a l ih =>
    unfold Table.findFrom
    rw [h a (by simp)]
    exact ih (fun b hb => h b (by simp [hb])) (i + 1)

theorem checkMap_default (i : Fin Config.channels) : checkMap (MapEntry.default i.val) = none := by
  obtain ⟨h1, h2⟩ := default_sources i.val
  obtain ⟨hz, -⟩ := decodeSource_zero
  have hp : sourcePresent (0x8000 + BitVec.ofNat 16 i.val) = true := by
    by_contra hp
    have := decodeSource_default i
    unfold decodeSource at this
    rw [if_neg hp] at this; cases this
  have hr : MergeRule.ofCode (MapEntry.default i.val).rule = some .only := rfl
  unfold checkMap
  rw [hr]
  simp only [firstFailed_none, List.mem_cons, List.not_mem_nil, or_false]
  rintro x (rfl | rfl | rfl | rfl | rfl)
  · simp only [h1, h2, hp, hz]; rfl
  · simp only [badSource, h1, h2, hp, hz, decodeSource_default]; rfl
  all_goals rfl

/-- The default set passes verification under its own checksum (R154, R165). -/
theorem verify_default : verify Bank.default (crc32 Bank.default.image) = none := by
  have hm : Table.findFrom checkMap 0 Bank.default.map.toList = none := by
    refine findFrom_none (fun a ha => ?_) 0
    obtain ⟨i, hi, rfl⟩ := List.mem_iff_getElem.mp ha
    have hi' : i < Config.channels := by simpa using hi
    rw [Vector.getElem_toList]
    exact (congrArg checkMap (default_map ⟨i, hi'⟩)).trans (checkMap_default ⟨i, hi'⟩)
  have hp : Table.findFrom checkProfile 0 Bank.default.profiles.toList = none := by
    refine findFrom_none (fun a ha => ?_) 0
    obtain rfl : a = ProfileRecord.default := by simpa [Bank.default] using ha
    rfl
  have he : entryFailure Bank.default = none := by
    unfold entryFailure
    rw [show checkConfig Bank.default.config = none from rfl, hm, hp]
  unfold verify
  rw [he]
  exact if_pos rfl

/-! ## HARD_RESET -/

/-- Settles O3: the state held in reset is read off field by field. -/
theorem hardResetSetsEveryBlock : Obligations.HardResetSetsEveryBlock := by
  intro s
  have table : ∀ {α : Type} {n : Nat} (v : α) (i : Fin n), (Vector.replicate n v)[i] = v :=
    fun _ i => Vector.getElem_replicate i.isLt
  refine ⟨heldInReset s, rfl, rfl, ?_, ?_, ?_, ?_, rfl, rfl, ?_, rfl, rfl, rfl, rfl, rfl, rfl, rfl, rfl, rfl,
    default_holdsDefaults, default_holdsDefaults, rfl, rfl, rfl, rfl, rfl, rfl, rfl, rfl, rfl, rfl, rfl, rfl⟩
  · rintro (_ | _ | _) <;> rfl
  · rintro (_ | _ | _) <;> exact ⟨rfl, rfl, rfl⟩
  · rintro (_ | _) <;> exact ⟨rfl, rfl, rfl, rfl, rfl, fun i => table _ i⟩
  · exact fun c => ⟨table _ c, table _ c, table _ c⟩
  · intro f c
    have hf : (heldInReset s).scenes[f] = Vector.replicate Config.channels 0 := table _ f
    rw [hf]; exact table _ c

/-! ## RESET_RELEASE -/

/-- A receiver at the release measures idle from it where its line is high, and else waits for the line (R3, R14). -/
theorem releasedRx_fields (now : Nat) (high : Bool) :
    (releasedRx now high).phase = .settling ∧ (releasedRx now high).buffer = [] ∧
    (releasedRx now high).lastError = none ∧ (releasedRx now high).idleSince = (if high then some now else none) ∧
    (releasedRx now high).awaitHigh = !high := by
  cases high <;> exact ⟨rfl, rfl, rfl, rfl, rfl⟩

/-- Under empty masks a latching neither drives ALERT nor offers a notice (R183, R187). -/
theorem latch_of_noMasks {k : Condition} {s : State} (ha : s.config.alertMask = 0) (hn : s.config.noticeMask = 0) :
    latch k s = { s with
      latched := addKind s.latched k, alert := if hasKind s.latched k then s.alert else false } := by
  have h2 : (latchFlag k s).2 = false := by unfold latchFlag; split <;> simp [hn]
  rw [latch_eq, h2, latchFlag_eq, ha]
  simp

/-- A latching whose kind is outside the notice mask is its flagging (R183). -/
theorem Conditions.latch_of_noNotice {s : State} {k : Condition} (h : hasKind s.config.noticeMask k = false)
    (v : Conditions) : v.latch s k = v.flag s k := by
  unfold Conditions.latch Conditions.owes
  rw [h, Bool.and_false]; rfl

/-- Settles O5: the released part, and PAUSED latched on it under the empty masks of the default set. -/
theorem resetReleaseStartsThePart : Obligations.ResetReleaseStartsThePart := by
  intro straps a b d s hr hd
  obtain ⟨hb, hact⟩ := hd hr
  have hc : s.config = .default := by unfold State.config State.activeBank; rw [hb, hact]; rfl
  set u := releasedPart straps a b d s with hu
  have huc : u.config = .default := hc
  have hlatch := latch_of_noMasks (k := .paused) (s := u) (by rw [huc]; rfl) (by rw [huc]; rfl)
  have ht : ∃ l y, releaseReset straps a b d s = { u with latched := l, alert := y } ∧
      Latches (if s.pause then [.paused] else []) s { u with latched := l, alert := y } ∧
      (s.alert = false → y = false) := by
    rw [releaseReset_eq]
    by_cases hp : s.pause = true
    · rw [if_pos hp, if_pos hp, ← hu, hlatch]
      refine ⟨_, _, rfl, ?_, fun hs => ?_⟩
      · rw [← hlatch]
        obtain ⟨h1, h2⟩ := latch_latches .paused u
        refine ⟨h1, h2.trans ?_⟩
        simp only [List.foldl_cons, List.foldl_nil]
        rw [Conditions.latch_of_noNotice (by rw [huc]; rfl), Conditions.latch_of_noNotice (by rw [hc]; rfl)]
        rfl
      · have : u.alert = false := hs
        rw [this]; exact ite_self _
    · rw [if_neg hp, if_neg hp]
      exact ⟨s.latched, s.alert, rfl, .refl rfl, id⟩
  obtain ⟨l, y, e, hl, hy⟩ := ht
  refine ⟨releaseReset straps a b d s, if_pos hr, ?_⟩
  rw [e]
  obtain ⟨pa, ba, ea, ia, wa⟩ := releasedRx_fields s.now a
  obtain ⟨pb, bb, eb, ib, wb⟩ := releasedRx_fields s.now b
  obtain ⟨pd, bd, ed, id', wd⟩ := releasedRx_fields s.now d
  refine ⟨rfl, ?_, ia, wa, ib, wb, id', wd, ?_, ?_, ?_, hl, ?_, hy, rfl⟩
  · rintro (_ | _ | _)
    · exact ⟨pa, ba, ea⟩
    · exact ⟨pb, bb, eb⟩
    · exact ⟨pd, bd, ed⟩
  · rintro (_ | _ | _) <;> rfl
  · show some (s.now + s.tickClocks) = _
    unfold State.tickClocks; rw [hc]; rfl
  · show some (s.now + s.refreshClocks) = _
    unfold State.refreshClocks; rw [hc]; rfl
  · intro k
    rw [hl.1]
    by_cases hp : s.pause = true <;> simp [hp]

/-! ## Commands without an event -/

/-- A command whose effect is none leaves the state as it is, RESET asserted or not. -/
theorem whenRunning_same {f : State → State} {s : State} (h : f s = s) : whenRunning f s = .next s := by
  unfold whenRunning; rw [h]; exact ite_self _

/-- Settles O4: a command under RESET waits for the release, and each event looks for what it ends. -/
theorem eventsThatCannotOccurChangeNothing : Obligations.EventsThatCannotOccurChangeNothing := by
  refine ⟨fun c s hr h1 h2 h3 h4 => exec_underReset hr h1 h2 h3 h4, fun s => ⟨?_, ?_, ?_, ?_, ?_, ?_, ?_, ?_, ?_, ?_, ?_,
    ?_, ?_, ?_, ?_⟩⟩
  · exact fun hr straps a b d => if_neg (by simp [hr])
  · exact fun hp => if_pos hp
  · exact fun h => whenRunning_same (by unfold fadeTickOp; rw [h])
  · exact fun h => whenRunning_same (by unfold refreshExpiryOp; rw [h])
  · exact fun p h => whenRunning_same (by unfold lossExpiryOp; rw [h])
  · exact fun p h => whenRunning_same (by unfold holdExpiryOp; rw [h])
  · refine fun h => whenRunning_same ?_
    unfold sessionExpiryOp
    split
    · rename_i o n e; exact absurd e (h o n)
    all_goals rfl
  · refine fun h => whenRunning_same ?_
    unfold verificationCompleteOp
    split
    · rename_i o k n e; exact absurd e (h o k n)
    all_goals rfl
  · refine fun h => whenRunning_same ?_
    unfold copyCompleteOp
    split
    · rename_i n e; exact absurd e (h n)
    all_goals rfl
  · refine fun x h => whenRunning_same ?_
    unfold transmitCompleteOp
    split
    · rename_i f n e; exact absurd e (h f n)
    all_goals rfl
  · refine fun x h => whenRunning_same ?_
    unfold gapEndOp
    split
    · rename_i n e; exact absurd e (h n)
    all_goals rfl
  · refine fun r h => whenRunning_same ?_
    unfold interFrameIdleOp
    dsimp only
    split
    · rename_i n hp hi; rcases h with h | h <;> simp_all
    · rfl
  · refine fun r h => whenRunning_same ?_
    unfold truncatedOp
    dsimp only
    split
    · rename_i n hp hi; rcases h with h | h <;> simp_all
    · rfl
  · refine fun r h => whenRunning_same ?_
    unfold lineReturnHighOp
    dsimp only
    rw [if_neg (by simp [h])]
  · exact whenRunning_same (if_pos ⟨rfl, rfl⟩)

/-! ## The state after reset -/

/-- A silent port offers nothing (R31, R42). -/
theorem contribution_silent {ports : PerPort PortUnit} (h : ∀ p, (ports.get p).state = .silent) (src : Option Source) :
    contribution ports src = none := by
  cases src with
  | none => rfl
  | some src => unfold contribution; simp [h, PortState.offers]

/-- After reset every channel holds level 0 under profile 0, which is what a resolution gives (R57, R62). -/
theorem reset_targetsResolved : State.reset.TargetsResolved := by
  intro c
  have hsilent : ∀ p, (State.reset.ports.get p).state = .silent := by rintro (_ | _) <;> rfl
  have hmap : State.reset.activeBank.map[c] = MapEntry.default c.val := default_map c
  have hlive : ∀ o, State.reset.liveLevel c o = none := by
    intro o
    unfold State.liveLevel mergedValue
    rw [contribution_silent hsilent, contribution_silent hsilent, hmap]; rfl
  have hprofile : State.reset.mapProfile c = 0 := by unfold State.mapProfile; rw [hmap]; rfl
  have hfall : State.reset.fallbackLevel c = none := by unfold State.fallbackLevel; rw [hmap]; rfl
  have hpark : State.reset.parks[c] = .reset := Vector.getElem_replicate c.isLt
  have htarget : State.reset.targets[c] = .reset := Vector.getElem_replicate c.isLt
  unfold resolveTarget
  rw [htarget, hpark, hlive, hprofile, hfall]
  rfl

/-- Settles O51: the blocks of the reset state one by one, its banks by the verification of the default set. -/
theorem resetIsSound : Obligations.ResetIsSound := by
  have hport : PortUnit.reset.Sound := ⟨rfl, rfl, rfl, fun i => by
    rw [show PortUnit.reset.slots[i] = ⟨0, false⟩ from Vector.getElem_replicate i.isLt]⟩
  have htarget : ∀ c : Fin Config.channels, State.reset.targets[c] = .reset :=
    fun c => Vector.getElem_replicate c.isLt
  have hfade : ∀ c : Fin Config.channels, State.reset.fades[c] = .reset :=
    fun c => Vector.getElem_replicate c.isLt
  have hgap : ∀ x, ∃ n, State.reset.tx.get x = .gap n := by rintro (_ | _ | _) <;> exact ⟨_, rfl⟩
  obtain ⟨hwait, hline⟩ := gaps_keepLines hgap
  refine ⟨⟨by decide, by decide, by decide, by decide⟩, hwait, ⟨nofun, hline rfl rfl⟩, ?_, ?_,
    ⟨verify_default, fun _ => rfl, nofun⟩, nofun, Nat.zero_lt_one, ⟨hport, hport⟩, reset_targetsResolved, fun c _ => by rw [htarget]; rfl, fun c => ?_, ⟨by decide, by decide⟩⟩
  · unfold State.AlertFollows
    simp [State.reset]
  · refine ⟨fun k => ?_, fun k hk => ?_⟩
    · simp [State.noticesFor, State.reset]
    · simp [State.reset] at hk
  · rw [hfade]
    exact ⟨by decide, by decide, by decide, rfl, fun _ => rfl⟩

end Sys2Proof.Machine
end

section
/-! The receivers outside a frame, and their errors (O8, O9). -/

namespace Sys2Proof.Machine

/-! ## Receive errors -/

/-- The receiver at the sample at which it detects an error, before the error has its effect (R3). -/
def Rx.atError (x : Rx) (e : DetectedError) (now : Nat) : Rx :=
  match e with
  | .character => x.waitHigh
  | .length | .crc | .format => x.measureFrom now

theorem errorAtSample_eq (r : Receiver) (e : DetectedError) (s : State) :
    errorAtSample r e s = receiveErrorOp r (errorKind e) (s.setRx r ((s.rx.get r).atError e s.now)) := by
  cases e <;> rfl

/-- An error detected at a sample: all that it does, seen from a state that differs in the time and in that receiver only
(R3, R11, R12, R23). -/
theorem errorAtSample_failed (r : Receiver) (e : DetectedError) {s0 s : State}
    (h0 : s = { s0 with rx := s.rx, now := s.now }) (hr : ∀ r', r' ≠ r → s.rx.get r' = s0.rx.get r') :
    ReceiveFailed r (errorKind e) s0 (errorAtSample r e s) ∧ (errorAtSample r e s).now = s.now ∧
      ((errorAtSample r e s).rx.get r).awaitHigh = decide (e = .character) ∧
      ((errorAtSample r e s).rx.get r).idleSince = if e = .character then none else some s.now := by
  rw [errorAtSample_eq]
  obtain ⟨hf, hn, ha, hi⟩ := receiveErrorOp_failed r (errorKind e) s0 (s.setRx r ((s.rx.get r).atError e s.now))
    (by rw [h0]; rfl) (fun r' hr' => by rw [setRx_rx, PerRx.get_set, if_neg hr', hr r' hr'])
  refine ⟨hf, hn, ha.trans ?_, hi.trans ?_⟩ <;> rw [setRx_rx, PerRx.get_set_self] <;> cases e <;> rfl

/-- TRUNCATED in RECEIVING is a receive error 8 µs after the idle began (R3, R9). -/
theorem truncatedOp_receiving {r : Receiver} {n : Nat} {s : State} (hp : (s.rx.get r).phase = .receiving)
    (hi : (s.rx.get r).idleSince = some n) :
    truncatedOp r s = receiveErrorOp r .truncated ((s.reach (n + Config.truncationClocks)).setRx r
      ((s.rx.get r).idleUntil (n + Config.truncationClocks))) := by
  unfold truncatedOp; simp only [hp, hi]

theorem truncatedOp_failed {r : Receiver} {n : Nat} {s : State} (hp : (s.rx.get r).phase = .receiving)
    (hi : (s.rx.get r).idleSince = some n) :
    ReceiveFailed r .truncated s (truncatedOp r s) ∧ (truncatedOp r s).now = max s.now (n + 160) ∧
      ((truncatedOp r s).rx.get r).idleSince = some n := by
  rw [truncatedOp_receiving hp hi]
  obtain ⟨hf, hn, -, hs⟩ := receiveErrorOp_failed r .truncated s ((s.reach (n + Config.truncationClocks)).setRx r
      ((s.rx.get r).idleUntil (n + Config.truncationClocks))) rfl
    (fun r' hr' => by rw [setRx_rx, PerRx.get_set, if_neg hr']; rfl)
  exact ⟨hf, hn, hs.trans (by rw [setRx_rx, PerRx.get_set_self]; exact hi)⟩

/-- Settles O9: the two ways to detect an error both end in `receiveErrorOp`. -/
theorem receiveErrorsDiscardTheFrame : Obligations.ReceiveErrorsDiscardTheFrame := by
  refine ⟨fun r e s h hfmt => ?_, fun r n s h hp hi => ?_⟩
  · obtain ⟨hf, hn, ha, hs⟩ := errorAtSample_failed r e (s0 := s) (s := s) rfl fun _ _ => rfl
    refine ⟨errorAtSample r e s, (whenRunning_next h).trans ?_, hn, ?_, ha, hs⟩
    · unfold receiveErrorEvent; rw [if_neg hfmt]
    · cases e <;> exact hf
  · obtain ⟨hf, hn, hs⟩ := truncatedOp_failed hp hi
    exact ⟨truncatedOp r s, whenRunning_next h, hn, hf, hs⟩

/-! ## Idle before a character -/

/-- INTER_FRAME_IDLE in SETTLING (R3, R6). -/
theorem interFrameIdleOp_settling {r : Receiver} {n : Nat} {s : State} (hp : (s.rx.get r).phase = .settling)
    (hi : (s.rx.get r).idleSince = some n) :
    interFrameIdleOp r s = (s.reach (n + Config.gapClocks)).setRx r
      { (s.rx.get r).idleUntil (n + Config.gapClocks) with phase := .hunting } := by
  unfold interFrameIdleOp; simp only [hp, hi]

theorem interFrameIdleOp_other {r : Receiver} {s : State} (hp : (s.rx.get r).phase ≠ .settling) :
    interFrameIdleOp r s = s := by
  unfold interFrameIdleOp; dsimp only; split
  · contradiction
  · rfl

theorem truncatedOp_other {r : Receiver} {s : State} (hp : (s.rx.get r).phase ≠ .receiving) : truncatedOp r s = s := by
  unfold truncatedOp; dsimp only; split
  · contradiction
  · rfl

/-- The idle before a leading edge has no effect outside RECEIVING, or up to 8 µs (R9). -/
theorem truncateBefore_none {r : Receiver} {edge : Nat} {s : State}
    (h : ∀ n, (s.rx.get r).idleSince = some n → (s.rx.get r).phase = .receiving →
      edge ≤ n + Config.truncationClocks) :
    truncateBefore r edge s = s := by
  unfold truncateBefore
  split
  · rename_i n hn
    split
    · rename_i hlt
      exact truncatedOp_other fun hp => absurd (h n hn hp) (by omega)
    · rfl
  · rfl

/-- The idle before a leading edge has no effect outside SETTLING, or below 12 µs (R6). -/
theorem huntBefore_none {r : Receiver} {edge : Nat} {s : State}
    (h : ∀ n, (s.rx.get r).idleSince = some n → (s.rx.get r).phase = .settling → edge < n + Config.gapClocks) :
    huntBefore r edge s = s := by
  unfold huntBefore
  split
  · rename_i n hn
    split
    · rename_i hle
      exact interFrameIdleOp_other fun hp => absurd (h n hn hp) (by omega)
    · rfl
  · rfl

/-- The state in which the frame logic has a character: the idle before it has had its effects (R3, R6, R9). -/
def beforeCharacter (r : Receiver) (s : State) : State :=
  (huntBefore r (stopSample r s - Config.sampleClocks)
    (truncateBefore r (stopSample r s - Config.sampleClocks) s)).reach (stopSample r s)

/-- A character that is looked at: its start bit sampled low, on a line that is not awaited high (R2, R6). -/
theorem characterOp_eq {r : Receiver} {w : BitVec 10} {s : State} (hw : w.getLsbD 0 = false)
    (ha : (s.rx.get r).awaitHigh = false) :
    characterOp r w s =
      if w.getLsbD 9 then goodCharacterOp r (w.extractLsb' 1 8) (beforeCharacter r s)
      else badCharacterOp r (beforeCharacter r s) := by
  unfold characterOp assemble
  rw [if_neg (by simp [ha]), if_neg (ne_true_of_eq_false hw)]
  rfl

/-- An idle that ends in time has no effect (R3, R6, R9). -/
theorem beforeCharacter_quiet {r : Receiver} {s : State}
    (h : ∀ n, (s.rx.get r).idleSince = some n →
      ((s.rx.get r).phase = .settling → stopSample r s < n + 240 + 76) ∧
      ((s.rx.get r).phase = .receiving → stopSample r s ≤ n + 160 + 76)) :
    beforeCharacter r s = s.reach (stopSample r s) := by
  unfold beforeCharacter
  have hs : 76 ≤ stopSample r s := by unfold stopSample; simp only [Config.sampleClocks]; omega
  rw [truncateBefore_none, huntBefore_none]
  · intro n hn hp
    have := (h n hn).1 hp
    simp only [Config.gapClocks, Config.sampleClocks]; omega
  · intro n hn hp
    have := (h n hn).2 hp
    simp only [Config.truncationClocks, Config.sampleClocks]; omega

/-- An idle of 12 µs in SETTLING has its effect before the character (R3, R6). -/
theorem beforeCharacter_hunts {r : Receiver} {n : Nat} {s : State} (hp : (s.rx.get r).phase = .settling)
    (hi : (s.rx.get r).idleSince = some n) (hn : n + 240 + 76 ≤ stopSample r s) :
    beforeCharacter r s = beforeCharacter r (interFrameIdleOp r s) := by
  set t := interFrameIdleOp r s with ht
  have he := interFrameIdleOp_settling hp hi
  have hx : t.rx.get r = { (s.rx.get r).idleUntil (n + Config.gapClocks) with phase := .hunting } := by
    rw [ht, he, setRx_rx, PerRx.get_set_self]
  have htp : (t.rx.get r).phase = .hunting := by rw [hx]
  have hsame : stopSample r t = stopSample r s := by
    have hnow : t.now = max s.now (n + 240) := by rw [ht, he]; rfl
    have hedge : (t.rx.get r).edgeFrom = max (s.rx.get r).edgeFrom (n + 240) := by rw [hx]; rfl
    unfold stopSample at hn ⊢
    rw [hnow, hedge]
    simp only [Config.sampleClocks] at hn ⊢
    omega
  unfold beforeCharacter
  rw [hsame, truncateBefore_none (s := s) fun _ _ h => absurd (hp.symm.trans h) nofun,
    truncateBefore_none (s := t) fun _ _ h => absurd (htp.symm.trans h) nofun,
    huntBefore_none (s := t) fun _ _ h => absurd (htp.symm.trans h) nofun]
  unfold huntBefore
  rw [hi]
  simp only
  rw [if_pos (by simp only [Config.gapClocks, Config.sampleClocks]; omega), ← ht]

/-- What a truncation leaves of the receiver (R9, R11). -/
theorem truncatedOp_rx {r : Receiver} {n : Nat} {s : State} (hp : (s.rx.get r).phase = .receiving)
    (hi : (s.rx.get r).idleSince = some n) :
    (truncatedOp r s).rx.get r =
      { ((s.rx.get r).idleUntil (n + Config.truncationClocks)).settled with lastError := some .truncated } := by
  rw [truncatedOp_receiving hp hi]
  unfold receiveErrorOp
  rw [reportBadFrame_rest]
  show (latch .frameError _).rx.get r = _
  rw [(latch_noticed _ _).rx, setRx_rx, PerRx.get_set_self, setRx_rx, PerRx.get_set_self]

/-- An idle of more than 8 µs in RECEIVING has its effect before the character (R3, R9). -/
theorem beforeCharacter_truncates {r : Receiver} {n : Nat} {s : State} (hp : (s.rx.get r).phase = .receiving)
    (hi : (s.rx.get r).idleSince = some n) (hn : n + 160 + 76 < stopSample r s) :
    beforeCharacter r s = beforeCharacter r (truncatedOp r s) := by
  set t := truncatedOp r s with ht
  have hx : t.rx.get r = _ := truncatedOp_rx hp hi
  have htp : (t.rx.get r).phase = .settling := by rw [hx]; rfl
  have hsame : stopSample r t = stopSample r s := by
    have hnow : t.now = max s.now (n + 160) := (truncatedOp_failed hp hi).2.1
    have hedge : (t.rx.get r).edgeFrom = max (s.rx.get r).edgeFrom (n + 160) := by rw [hx]; rfl
    unfold stopSample at hn ⊢
    rw [hnow, hedge]
    simp only [Config.sampleClocks] at hn ⊢
    omega
  have htrunc : truncateBefore r (stopSample r s - Config.sampleClocks) s = t := by
    unfold truncateBefore
    rw [hi]
    simp only
    rw [if_pos (by simp only [Config.truncationClocks, Config.sampleClocks]; omega), ← ht]
  unfold beforeCharacter
  rw [hsame, htrunc, truncateBefore_none (s := t) fun _ _ h => absurd (htp.symm.trans h) nofun]

/-- Time that goes on to an instant has reached it. -/
theorem State.reach_of_le {s : State} {n : Nat} (h : s.now ≤ n) : s.reach n = { s with now := n } := by
  unfold State.reach; rw [Nat.max_eq_right h]

/-! ## Characters outside a frame -/

/-- The measurement of a receiver that looks for start bits (R3). -/
theorem Rx.measureFrom_eq {x : Rx} (h : x.awaitHigh = false) (n : Nat) :
    x.measureFrom n = { x with idleSince := some n, edgeFrom := n + 4 } := by
  cases x; cases h; rfl

/-- A good character in SETTLING is discarded (R6). -/
theorem goodCharacterOp_settling {r : Receiver} {b : Byte} {s : State} (hp : (s.rx.get r).phase = .settling) :
    goodCharacterOp r b s = s.setRx r ((s.rx.get r).measureFrom s.now) := by
  unfold goodCharacterOp
  simp only [hp]

/-- A good character in HUNTING starts a frame or not (R6). -/
theorem goodCharacterOp_hunting {r : Receiver} {b : Byte} {s : State} (hp : (s.rx.get r).phase = .hunting) :
    goodCharacterOp r b s = s.setRx r { (s.rx.get r).settled.measureFrom s.now with
      phase := if b = 0xC3 then .receiving else .settling } := by
  unfold goodCharacterOp
  simp only [hp]
  split <;> rfl

/-- A character that is no false start has the effects of the idle before it first (R3, R6, R9). -/
theorem characterReceived_after_idle {r : Receiver} {w : BitVec 10} {s t : State} (h : s.inReset = false)
    (ht : t.inReset = false) (hw : w.getLsbD 0 = false) (ha : (s.rx.get r).awaitHigh = false)
    (hta : (t.rx.get r).awaitHigh = false) (hb : beforeCharacter r s = beforeCharacter r t) :
    exec (.characterReceived r w) s = exec (.characterReceived r w) t := by
  simp only [exec, execCharacterReceived]
  rw [whenRunning_next h, whenRunning_next ht, characterOp_eq hw ha, characterOp_eq hw hta, hb]

/-- Settles O8: each idle that a leading edge ends acts before the character, which then finds the receiver in one of its
three phases. -/
theorem receiversWaitForAFrame : Obligations.ReceiversWaitForAFrame := by
  refine ⟨fun r s h => ⟨fun n hp hi => ?_, fun ha => ?_⟩,
    fun r w s x sample h hx hsample => ⟨fun hw => ?_, fun hw ha => ?_⟩⟩
  · exact (whenRunning_next h).trans (by rw [interFrameIdleOp_settling hp hi]; rfl)
  · refine (whenRunning_next h).trans ?_
    unfold lineReturnHighOp; rw [if_pos ha]; rfl
  · refine (whenRunning_next h).trans ?_
    unfold characterOp assemble
    subst hx
    split
    · rfl
    · rename_i hna
      rw [if_pos (hw.resolve_right hna)]
  · subst hx
    have hstop : stopSample r s = sample := hsample.symm
    refine ⟨fun n hi hp hn => ?_, fun n hi hp hn => ?_, fun hq => ?_⟩
    · refine ⟨interFrameIdleOp r s, whenRunning_next h, characterReceived_after_idle h ?_ hw ha ?_
        (beforeCharacter_hunts hp hi (hstop ▸ hn))⟩
      · exact (interFrameIdleOp_kept r s).inReset.trans h
      · rw [interFrameIdleOp_settling hp hi, setRx_rx, PerRx.get_set_self]; exact ha
    · refine ⟨truncatedOp r s, whenRunning_next h, characterReceived_after_idle h ?_ hw ha ?_
        (beforeCharacter_truncates hp hi (hstop ▸ hn))⟩
      · exact (truncatedOp_kept r s).inReset.trans h
      · rw [truncatedOp_rx hp hi]; exact ha
    · have hreach : s.reach sample = { s with now := sample } := State.reach_of_le (by omega)
      have hb : beforeCharacter r s = { s with now := sample } :=
        (hstop ▸ beforeCharacter_quiet (hstop ▸ hq) : beforeCharacter r s = s.reach sample).trans hreach
      have hexec : exec (.characterReceived r w) s =
          .next (if w.getLsbD 9 then goodCharacterOp r (w.extractLsb' 1 8) { s with now := sample }
            else badCharacterOp r { s with now := sample }) := by
        refine (whenRunning_next h).trans ?_
        rw [characterOp_eq hw ha, hb]
      refine ⟨fun hg hp => ?_, fun hg hp => ?_, fun hg hp => ?_, fun hg hp => ?_⟩
      · rw [hexec, if_pos hg]
        rw [goodCharacterOp_settling (s := { s with now := sample }) hp, Rx.measureFrom_eq ha]; rfl
      · rw [hexec, if_pos hg, goodCharacterOp_hunting (s := { s with now := sample }) hp]; rfl
      · refine ⟨(s.rx.get r).settled.waitHigh, ?_, rfl, rfl, rfl, rfl⟩
        rw [hexec, if_neg (ne_true_of_eq_false hg)]
        unfold badCharacterOp
        dsimp only
        split
        · rfl
        · rfl
        · contradiction
      · obtain ⟨hf, hn, haw, hid⟩ := errorAtSample_failed r .character (s0 := s)
          (s := { s with now := sample }) rfl fun _ _ => rfl
        refine ⟨errorAtSample r .character { s with now := sample }, ?_, hn, hf, haw, hid⟩
        rw [hexec, if_neg (ne_true_of_eq_false hg)]
        unfold badCharacterOp
        simp only [hp]

end Sys2Proof.Machine
end

section
/-! Frames for the forward and relay paths, and frames discarded at the ports (O12, O13, O14). -/

namespace Sys2Proof.Machine

/-! ## The two paths -/

/-- A latching beside what a receiver did (R13, R183). -/
theorem latch_besideRx (k : Condition) {s u : State} (hu : u = { s with rx := u.rx }) :
    Latches [k] s (latch k u) ∧ OnlyReceiversAndConditions s (latch k u) := by
  have hno := latch_noticed k u
  have hn : s.NothingWaitsForFree → u.NothingWaitsForFree := by rw [hu]; exact id
  refine ⟨(latch_latches k u).congr (by rw [hu]) (by rw [hu]; rfl) (by rw [hu]; rfl) rfl, ?_, ?_⟩
  · unfold Noticed at hno; rw [hno, hu]
  · exact (latch_serves k u).1.congr (by rw [hu]) (by rw [hu]) (by rw [hu]) (by rw [hu]) (by rw [hu]) hn rfl rfl rfl rfl
      rfl rfl

/-- What the forward path does with a frame, beside a receiver that settled before it (R115). -/
theorem forwardPath_forwarded (f : Frame) {s u : State} (hu : u = { s with rx := u.rx }) :
    Forwarded f s (forwardPath f u) ∧ (forwardPath f u).rx = u.rx := by
  have hc : u.config = s.config := by rw [hu]; rfl
  have hfwd : u.config.forwards = true ↔ s.config.forwardEnable = 1 := by
    rw [hc]; unfold ConfigRecord.forwards; exact beq_iff_eq
  have hfifo : u.forward = s.forward := by rw [hu]
  have huD : u.tx.d = s.tx.d := by rw [hu]
  have huO : u.output = s.output := by rw [hu]
  by_cases hon : s.config.forwardEnable = 1
  · by_cases hfull : 4 ≤ s.forward.length
    · have e : forwardPath f u = latch .forwardDrop u := by
        unfold forwardPath; rw [if_pos (hfwd.mpr hon), if_pos (by rw [hfifo]; exact hfull)]
      rw [e]
      exact ⟨⟨fun h => absurd hon h, fun _ _ => latch_besideRx _ hu, fun _ h => by omega, fun _ h => by simp [h] at hfull⟩,
        (latch_noticed _ _).rx⟩
    · have e : forwardPath f u = serveD { u with forward := s.forward ++ [f] } := by
        unfold forwardPath
        rw [if_pos (hfwd.mpr hon), if_neg (by rw [hfifo]; exact hfull), hfifo]
      rw [e]
      refine ⟨⟨fun h => absurd hon h, fun _ h => absurd h hfull, fun _ _ hd => ?_, fun _ he hd hw => ?_⟩, ?_⟩
      · have : serveD { u with forward := s.forward ++ [f] } = { u with forward := s.forward ++ [f] } := by
          unfold serveD
          split
          · rename_i hd'; exact absurd (huD.symm.trans hd') hd
          · rfl
        rw [this, hu]
      · have : serveD { u with forward := s.forward ++ [f] } = startTx .dTx f { u with forward := [] } := by
          unfold serveD
          simp only [huD, hd, he, List.nil_append, huO]
        rw [this, hu, ← he]; rfl
      · rw [serveD_frame]
  · have e : forwardPath f u = u := by unfold forwardPath; rw [if_neg (fun h => hon (hfwd.mp h))]
    rw [e]
    exact ⟨⟨fun _ => hu, fun h => absurd h hon, fun h => absurd h hon, fun h => absurd h hon⟩, rfl⟩

/-- A receiver that has settled hands its frame to the forward path (R13, R115). -/
theorem settle_forwarded (r : Receiver) (f : Frame) (s : State) :
    Settled r s (forwardPath f (settle r s)) ∧ Forwarded f s (forwardPath f (settle r s)) := by
  obtain ⟨hf, hr⟩ := forwardPath_forwarded f (s := s) (u := settle r s) rfl
  exact ⟨(settle_settled r s).of_rx hr, hf⟩

/-! ## Well-formed frames -/

/-- A REPLY, NOTICE or opaque frame within its largest payload (R5, R13). -/
theorem carriedOn_iff (f : Frame) :
    (f.carriedOn && f.lengthOk) = true ↔
      (f.kind ≠ Frame.levelKind ∧ f.kind ≠ Frame.requestKind) ∧ ¬ f.payload.length > maxPayload f.kind := by
  simp [Frame.carriedOn, Frame.lengthOk]

theorem decodeFrame_forward {node : Byte} {f : Frame} (h : (Instr.forwardFrame f).wellFormed = true) :
    decodeFrame node .aRx f = .ok (.forwardFrame f) := by
  obtain ⟨⟨h1, h2⟩, h3⟩ := (carriedOn_iff f).mp h
  unfold decodeFrame
  rw [if_neg h3]
  simp only
  rw [if_neg h1, if_neg h2]

theorem decodeFrame_discarded {node : Byte} {f : Frame} (h : (Instr.bFrameDiscarded f).wellFormed = true) :
    decodeFrame node .bRx f = .ok (.bFrameDiscarded f) := by
  obtain ⟨⟨h1, h2⟩, h3⟩ := (carriedOn_iff f).mp h
  unfold decodeFrame
  rw [if_neg h3]
  simp only
  rw [if_neg h1, if_neg h2]

theorem decodeFrame_relay {node : Byte} {f : Frame} (h : f.lengthOk = true) :
    decodeFrame node .dReturnRx f = .ok (.relayFrame f) := by
  simp only [Frame.lengthOk, decide_eq_true_eq] at h
  unfold decodeFrame
  rw [if_neg (by omega)]

/-- A frame that decodes completes as its command (R13). -/
theorem completeFrame_ok {r : Receiver} {f : Frame} {s : State} {c : Instr} (h : decodeFrame s.node r f = .ok c) :
    completeFrame r f s = runFrameCommand c s := by
  unfold completeFrame; rw [h]

/-- A well-formed REQUEST for another node is handed on (R128). -/
theorem exec_requestNotTaken {h : RequestHeader} {code : Byte} {args : List Byte} {s : State} (hr : s.inReset = false)
    (hw : (Instr.requestNotTaken h code args).wellFormed = true) (hn : h.destination ≠ s.node) :
    exec (.requestNotTaken h code args) s = .next (handOn h code args (settle (rxOf h.port) s)) := by
  refine (whenRunning_next hr).trans ?_
  rw [completeFrame_ok (decodeFrame_requestNotTaken hw hn)]; rfl

/-- A well-formed LEVEL frame settles its receiver before the port unit has it (R10, R13). -/
theorem exec_levelFrameA {f : LevelFrame} {s : State} (hr : s.inReset = false) (hw : f.wellFormed = true) :
    exec (.levelFrameA f) s = .next (levelAtA f (settle .aRx s)) := by
  refine (whenRunning_next hr).trans ?_
  unfold onLevelA; rw [levelError_none hw]

theorem exec_levelFrameB {f : LevelFrame} {s : State} (hr : s.inReset = false) (hw : f.wellFormed = true) :
    exec (.levelFrameB f) s = .next (levelAtB f (settle .bRx s)) := by
  refine (whenRunning_next hr).trans ?_
  unfold onLevelB; rw [levelError_none hw]

/-- Settles O12: the three kinds of frame all reach `forwardPath` behind a receiver that settled. -/
theorem framesForTheForwardPath : Obligations.FramesForTheForwardPath := by
  refine ⟨fun f s hr hw => ?_, fun h code args s hr hp hw hn => ?_, fun f s hr hw ha ho => ?_⟩
  · obtain ⟨h1, h2⟩ := settle_forwarded .aRx f s
    refine ⟨_, (whenRunning_next hr).trans ?_, h1, h2⟩
    rw [completeFrame_ok (decodeFrame_forward hw)]; rfl
  · obtain ⟨h1, h2⟩ := settle_forwarded .aRx (requestFrame h code args) s
    refine ⟨_, exec_requestNotTaken hr hw hn, ?_⟩
    rw [hp]
    unfold handOn
    rw [hp]
    exact ⟨h1, h2⟩
  · obtain ⟨h1, h2⟩ := settle_forwarded .aRx (levelFrame f) s
    refine ⟨_, exec_levelFrameA hr hw, ?_⟩
    unfold levelAtA
    rw [if_neg (by exact ha), if_neg (by exact ho)]
    exact ⟨h1, h2⟩

/-- Settles O13: a full FIFO drops the frame, and one with room takes it for A-return-tx. -/
theorem framesForTheRelayPath : Obligations.FramesForTheRelayPath := by
  intro f s hr hl
  set u := settle .dReturnRx s with hu
  have he : exec (.relayFrame f) s = .next (relayPath f u) := by
    refine (whenRunning_next hr).trans ?_
    rw [completeFrame_ok (decodeFrame_relay hl)]; rfl
  refine ⟨_, he, (settle_settled _ s).of_rx (relayPath_noticed f u).rx, fun hfull => ?_, fun hroom ha => ?_,
    fun hnil ha hq => ?_⟩
  · have e : relayPath f u = latch .relayDrop u := if_pos hfull
    rw [e]
    obtain ⟨hlatch, hrest, hserve⟩ := latch_besideRx .relayDrop (s := s) (u := u) rfl
    exact ⟨hlatch, ⟨hrest, hserve⟩, fun hw => hw.elim (fun ha => (hserve.2.1 ha).1) fun hn => (hserve.2.2 hn).1⟩
  · have e : relayPath f u = serveA { u with relay := s.relay ++ [f] } := if_neg (Nat.not_le.mpr hroom)
    rw [e, serveA_of_not_free (by exact ha)]; rfl
  · have e : relayPath f u = serveA { u with relay := [f] } :=
      (if_neg (by rw [show u.relay = [] from hnil]; decide)).trans (by rw [show u.relay = [] from hnil]; rfl)
    have ht : takeOldest .a s.queue = none := takeOldest_none.mpr hq
    have hs : serveA { u with relay := [f] } = startTx .aReturnTx f { u with relay := [], preference := .replies } := by
      unfold serveA
      simp only [show u.tx.a = .free from ha, show takeOldest .a u.queue = none from ht]
    rw [e, hs, ← hnil]; rfl

/-- Settles O14: the receiver settles, and only a clash of the output stream latches besides. -/
theorem framesDiscardedAtThePorts : Obligations.FramesDiscardedAtThePorts := by
  refine ⟨⟨fun f s hr hw => ?_, fun h code args s hr hp hw hn => ?_, fun f s hr hw ha => ?_⟩, fun f s hr hw ha ho => ?_⟩
  · refine ⟨settle .bRx s, (whenRunning_next hr).trans ?_, settle_settled _ s, rfl⟩
    rw [completeFrame_ok (decodeFrame_discarded hw)]; rfl
  · refine ⟨settle .bRx s, (exec_requestNotTaken hr hw hn).trans ?_, settle_settled _ s, rfl⟩
    unfold handOn; rw [hp]; rfl
  · refine ⟨settle .bRx s, (exec_levelFrameB hr hw).trans ?_, settle_settled _ s, rfl⟩
    unfold levelAtB; rw [if_neg (by exact ha)]
  · refine ⟨latch .streamClash (settle .aRx s), (exec_levelFrameA hr hw).trans ?_,
      (settle_settled _ s).of_rx (latch_noticed _ _).rx, latch_besideRx _ rfl⟩
    unfold levelAtA; rw [if_neg (by exact ha), if_pos (by exact ho)]

end Sys2Proof.Machine
end

section
/-! What the transmitters send, their completions and their gaps (O15, O16). -/

namespace Sys2Proof.Machine

/-! ## Completions -/

/-- A completion puts the transmitter in GAP and tells the block that offered the frame (R15). -/
theorem transmitCompleteOp_sending {x : Transmitter} {f : Frame} {n : Nat} {s : State} (h : s.tx.get x = .sending f n) :
    transmitCompleteOp x s = reportCompletion x ((s.reach n).setTx x (.gap (some (n + 240)))) := by
  unfold transmitCompleteOp; rw [h]

theorem reportCompletion_return (p : Port) : reportCompletion (returnTx p) = entryCompleted p := by
  cases p <;> rfl

/-- What the completion on D leaves of the output frame (R112). -/
def OutputFrame.completed : OutputFrame → OutputFrame
  | .sending _ => .empty
  | .empty => .empty
  | .waiting f => .waiting f

theorem outputCompleted_eq (s : State) : outputCompleted s = { s with output := s.output.completed } := by
  unfold outputCompleted
  split <;> rename_i h <;> rw [h]
  · rfl
  · exact congrArg (fun o => ({ s with output := o } : State)) h
  · exact congrArg (fun o => ({ s with output := o } : State)) h

/-- With the return line of the lowest pending kind in GAP, or the other one, the kind joins the queue (R190). -/
theorem drainPending_some {s : State} {k : Condition} (hk : hasKind s.pendingNotices k = true)
    (hl : ∀ j : Condition, j.number < k.number → hasKind s.pendingNotices j = false) :
    entries (drainPending s).queue = entries s.queue ++ [(.notice s.node k s.summaryByte, .a)] ∧
      ∀ j, hasKind (drainPending s).pendingNotices j = true ↔ hasKind s.pendingNotices j = true ∧ j ≠ k := by
  set u : State := { s with pendingNotices := removeKinds s.pendingNotices (addKind 0 k) } with hu
  have e : drainPending s = queueNotice k u := drainPending_eq (lowestKind_some hk hl)
  rw [e]
  refine ⟨joinQueue_entries _ _ u, fun j => ?_⟩
  obtain ⟨-, -, hp⟩ := queueNotice_conditions k u
  rw [hp, hu]
  simp only [hasKind_removeKinds, hasKind_addKind, hasKind_zero]
  simp

/-- A pending kind joins the queue for A, or nothing does: the return lines serve it (R137, R190). -/
theorem drainPending_serves (s : State) : ReturnsServe s (drainPending s) := by
  unfold drainPending
  split
  · rename_i k _
    set u : State := { s with pendingNotices := removeKinds s.pendingNotices (addKind 0 k) } with hu
    exact (joinQueue_serves (.notice u.node k u.summaryByte) .a u).1.congr rfl rfl rfl rfl rfl id rfl rfl rfl rfl rfl rfl
  · exact .of_same rfl rfl rfl rfl rfl

/-- All that a drain changes (R190). -/
theorem drainPending_frame (s : State) :
    drainPending s = { s with
      tx := { s.tx with a := (drainPending s).tx.a }
      relay := (drainPending s).relay
      queue := (drainPending s).queue
      preference := (drainPending s).preference
      pendingNotices := (drainPending s).pendingNotices } := by
  unfold drainPending
  split
  · rename_i k _
    set u : State := { s with pendingNotices := removeKinds s.pendingNotices (addKind 0 k) } with hu
    have e : queueNotice k u = serveA { u with queue := u.queue ++ [⟨.notice u.node k u.summaryByte, .a, .waiting⟩] } :=
      rfl
    rw [e, serveA_frame]
  · rfl

/-- A completion whose queue has no entry for the line moves nothing (R138). -/
theorem entryCompleted_none {p : Port} {s : State} (h : s.queue.countP (·.sendsOn p) = 0) : entryCompleted p s = s := by
  unfold entryCompleted; rw [removeSending_none.mpr h]

/-- A completion removes the entry of the line (R138, R190). -/
theorem entryCompleted_split {p : Port} {s : State} {l r : List QueueEntry} {e : QueueEntry} (hq : s.queue = l ++ e :: r)
    (he : e.sendsOn p = true) (hl : l.countP (·.sendsOn p) = 0) :
    entryCompleted p s = drainPending { s with queue := l ++ r } := by
  unfold entryCompleted; rw [hq, removeSending_split r he hl]

/-- Settles O15: the gap begins, and each line reports its completion to what it served. -/
theorem transmissionsComplete : Obligations.TransmissionsComplete := by
  refine ⟨fun f n s hr hd => ?_, fun p f n s hr hp => ⟨fun hq => ?_, fun l e r hq he hl => ?_⟩⟩
  · refine (whenRunning_next hr).trans (congrArg Host.Outcome.next ?_)
    rw [transmitCompleteOp_sending (x := .dTx) hd]
    rw [show reportCompletion .dTx = outputCompleted from rfl, outputCompleted_eq]
    exact congrArg (fun o => ({ s with
      now := max s.now n, tx := { s.tx with d := .gap (some (n + 240)) }, output := o } : State))
      (by rw [setTx_output, reach_output]; cases s.output <;> rfl)
  · refine (whenRunning_next hr).trans (congrArg Host.Outcome.next ?_)
    rw [transmitCompleteOp_sending hp, reportCompletion_return]
    exact entryCompleted_none hq
  · set u : State := { s with
      now := max s.now n, tx := s.tx.set (returnTx p) (.gap (some (n + 240))), queue := l ++ r } with hu
    have hdone : exec (.transmitComplete (returnTx p)) s = .next (drainPending u) := by
      refine (whenRunning_next hr).trans (congrArg Host.Outcome.next ?_)
      rw [transmitCompleteOp_sending hp, reportCompletion_return]
      exact entryCompleted_split hq he hl
    have hsum : u.summaryByte = s.summaryByte := summaryByte_congr rfl rfl
    have hserve := drainPending_serves u
    have hnow : (drainPending u).now = u.now := (drainPending_noticed u).now
    have hgap : u.tx.get (returnTx p) = .gap (some (n + 240)) := PerTx.get_set_self _ _ _
    refine ⟨drainPending u, hdone, ?_, fun h0 => ?_, fun k hk hlow => ?_, ?_, ?_⟩
    · exact (hserve.1 p (by rw [hgap]; nofun)).trans hgap
    · rw [drainPending_zero (s := u) h0]; exact ⟨rfl, h0⟩
    · rw [← hsum]; exact drainPending_some (s := u) hk hlow
    · rw [drainPending_frame u]
      cases p <;> rfl
    · rw [hnow]; exact hserve

/-! ## What a transmitter sends -/

theorem crcShift_eq {n : Nat} (poly : BitVec n) : crcShift poly = shiftedPlace poly := by
  funext r
  unfold crcShift shiftedPlace
  rw [BitVec.msb_eq_getLsbD_last]
  split <;> simp

/-- The CRC-16 of the model is the one of R8. -/
theorem crc16_asGiven : Crc16AsGiven := by
  intro l
  have hb : ∀ b : Byte, (b ++ 0#8 : BitVec 16) = b.setWidth 16 <<< 8 := by
    intro b
    apply BitVec.eq_of_toNat_eq
    refine (BitVec.toNat_append b 0#8).trans ?_
    simp [Nat.shiftLeft_eq]
    omega
  unfold crc16
  congr 1
  funext r b
  unfold crc16Byte
  rw [crcShift_eq, hb]

/-- The bits of a good character: start bit, data bits, stop bit (R1). -/
theorem goodCharacter_bits (b : Byte) {j : Nat} (hj : j < 10) :
    (goodCharacter b).getLsbD j = if j = 0 then false else if j = 9 then true else b.getLsbD (j - 1) := by
  unfold goodCharacter
  rw [BitVec.getLsbD_append, BitVec.getLsbD_append]
  by_cases h0 : j = 0
  · subst h0; rfl
  · by_cases h9 : j = 9
    · subst h9; rfl
    · rw [if_neg h0, if_neg h9, if_neg (by omega), if_pos (by omega)]

/-- The characters of a frame as R4 gives them. -/
theorem frameCharacters_eq (f : Frame) :
    frameCharacters f = [0xC3, f.kind] ++ bytes16 (BitVec.ofNat 16 f.payload.length) ++ f.payload ++
      bytes16 (crc16 (f.kind :: bytes16 (BitVec.ofNat 16 f.payload.length) ++ f.payload)) := rfl

/-- A line that carries characters shows bit `j` of character `i` for the 8 clock periods of it (R1, R16). -/
theorem characterLine_bit {chars : List Byte} {i j : Nat} {b : Byte} (hb : chars[i]? = some b) (hj : j < 10) :
    characterLine chars (10 * i + j) = (goodCharacter b).getLsbD j := by
  unfold characterLine
  rw [show (10 * i + j) / 10 = i by omega, show (10 * i + j) % 10 = j by omega, hb]

/-- The line of a transmitter that sends, bit by bit (R1, R4, R15, R16). -/
theorem outputLine_sending {x : Transmitter} {f : Frame} {n i j u : Nat} {b : Byte} {s : State}
    (hx : s.tx.get x = .sending f n) (hb : (frameCharacters f)[i]? = some b) (hj : j < 10) (hu : u < 8)
    (ht : s.now + (f.payload.length + 6) * 80 = n + 80 * i + 8 * j + u) :
    s.outputLine x = if j = 0 then false else if j = 9 then true else b.getLsbD (j - 1) := by
  unfold State.outputLine
  rw [hx]
  have hbit : (s.now + frameClocks f - n) / 8 = 10 * i + j := by
    unfold frameClocks
    simp only [Config.characterClocks]
    omega
  simp only [hbit]
  rw [characterLine_bit hb hj, goodCharacter_bits b hj]

/-- A transmitter that sends nothing holds its line high (R15). -/
theorem outputLine_quiet {x : Transmitter} {s : State} (h : ∀ f n, s.tx.get x ≠ .sending f n) :
    s.outputLine x = true := by
  unfold State.outputLine
  split
  · rename_i f n e; exact absurd e (h f n)
  all_goals rfl

/-! ## Gaps -/

/-- The end of a gap frees the transmitter, which looks for a frame (R15). -/
theorem exec_gapEnd {x : Transmitter} {n : Nat} {s : State} (hr : s.inReset = false) (h : s.tx.get x = .gap (some n)) :
    exec (.gapEnd x) s = .next (serve x ((s.reach n).setTx x .free)) := by
  refine (whenRunning_next hr).trans ?_
  unfold gapEndOp; rw [h]

/-- What D-tx takes in FREE (R113). -/
theorem serveD_waiting {s : State} {f : Frame} (hd : s.tx.d = .free) (ho : s.output = .waiting f) :
    serveD s = startTx .dTx f { s with output := .sending f } := by
  unfold serveD; simp only [hd, ho]

theorem serveD_forward {s : State} {f : Frame} {rest : List Frame} (hd : s.tx.d = .free)
    (ho : ∀ g, s.output ≠ .waiting g) (hf : s.forward = f :: rest) :
    serveD s = startTx .dTx f { s with forward := rest } := by
  obtain ⟨g, -, hw, -⟩ | ⟨g, r, -, -, hg, e⟩ | ⟨hw, -⟩ := serveD_cases s
  · exact absurd hw (ho g)
  · rw [hf] at hg; cases hg; exact e
  · rw [(hw hd).2] at hf; cases hf

theorem serveD_nothing {s : State} (ho : ∀ g, s.output ≠ .waiting g) (hf : s.forward = []) : serveD s = s := by
  obtain ⟨g, -, hw, -⟩ | ⟨g, r, -, -, hg, e⟩ | ⟨-, e⟩ := serveD_cases s
  · exact absurd hw (ho g)
  · rw [hf] at hg; cases hg
  · exact e

/-- What A-return-tx takes in FREE: the oldest entry that waits for it, where it is alone or preferred (R140). -/
theorem serveA_entry {s : State} {l r : List QueueEntry} {e : QueueEntry} (ha : s.tx.a = .free)
    (hq : s.queue = l ++ e :: r) (he : e.waitsFor .a = true) (hl : l.countP (·.waitsFor .a) = 0)
    (hp : s.relay = [] ∨ s.preference = .replies) :
    serveA s = startTx .aReturnTx e.message.frame
      { s with queue := l ++ { e with state := .sending } :: r, preference := .relay } := by
  have ht : takeOldest .a s.queue = _ := hq ▸ takeOldest_split r he hl
  unfold serveA
  simp only [ha, ht]
  rcases hp with hp | hp
  · simp only [hp]
  · cases hr : s.relay <;> simp only [hp]

/-- What A-return-tx takes in FREE: the head of the relay FIFO, where it is alone or preferred (R140). -/
theorem serveA_relay {s : State} {f : Frame} {rest : List Frame} (ha : s.tx.a = .free) (hr : s.relay = f :: rest)
    (hp : s.queue.countP (·.waitsFor .a) = 0 ∨ s.preference = .relay) :
    serveA s = startTx .aReturnTx f { s with relay := rest, preference := .replies } := by
  unfold serveA
  simp only [ha, hr]
  rcases hp with hp | hp
  · simp only [takeOldest_none.mpr hp]
  · cases ht : takeOldest .a s.queue with
    | none => rfl
    | some x => simp only [hp]

theorem serveA_nothing {s : State} (hq : s.queue.countP (·.waitsFor .a) = 0) (hr : s.relay = []) : serveA s = s := by
  obtain ⟨m, q, -, ht, -⟩ | ⟨f, rest, -, hf, -⟩ | ⟨-, e⟩ := serveA_cases s
  · rw [takeOldest_none.mpr hq] at ht; cases ht
  · rw [hr] at hf; cases hf
  · exact e

/-- What B-return-tx takes in FREE: the oldest entry that waits for it (R139). -/
theorem serveB_entry {s : State} {l r : List QueueEntry} {e : QueueEntry} (hb : s.tx.b = .free)
    (hq : s.queue = l ++ e :: r) (he : e.waitsFor .b = true) (hl : l.countP (·.waitsFor .b) = 0) :
    serveB s = startTx .bReturnTx e.message.frame { s with queue := l ++ { e with state := .sending } :: r } := by
  have ht : takeOldest .b s.queue = _ := hq ▸ takeOldest_split r he hl
  unfold serveB
  simp only [hb, ht]

theorem serveB_nothing {s : State} (hq : s.queue.countP (·.waitsFor .b) = 0) : serveB s = s := by
  obtain ⟨m, q, -, ht, -⟩ | ⟨-, e⟩ := serveB_cases s
  · rw [takeOldest_none.mpr hq] at ht; cases ht
  · exact e

/-- Settles O16: the terms of the lines bit by bit, and each arbiter at the end of its gap. -/
theorem gapEndTakesTheNextFrame : Obligations.GapEndTakesTheNextFrame := by
  refine ⟨⟨crc16_asGiven, fun r => ?_, fun _ _ _ => rfl, fun x f n i j u b s hx hb hj hu ht => ?_, fun x s h => ?_⟩,
    fun n s hr hd => ?_, fun n s hr ha => ?_, fun n s hr hb => ?_⟩
  · obtain ⟨node, tag, command, result, summary, data⟩ := r
    cases result <;> rfl
  · exact outputLine_sending hx hb hj hu ht
  · exact outputLine_quiet h
  · set u := (s.reach n).setTx .dTx .free
    have he : exec (.gapEnd .dTx) s = .next (serveD u) := exec_gapEnd (x := .dTx) hr hd
    refine ⟨fun f ho => ?_, fun f rest ho hf => ?_, fun ho hf => ?_⟩
    · rw [he, serveD_waiting (s := u) rfl ho]; rfl
    · rw [he, serveD_forward (s := u) rfl ho hf]; rfl
    · rw [he, serveD_nothing (s := u) ho hf]; rfl
  · set u := (s.reach n).setTx .aReturnTx .free
    have he : exec (.gapEnd .aReturnTx) s = .next (serveA u) := exec_gapEnd (x := .aReturnTx) hr ha
    refine ⟨fun l e r hq hw hl hp => ?_, fun f rest hf hp => ?_, fun hq hf => ?_⟩
    · rw [he, serveA_entry (s := u) rfl hq hw hl hp]; rfl
    · rw [he, serveA_relay (s := u) rfl hf hp]; rfl
    · rw [he, serveA_nothing (s := u) hq hf]; rfl
  · set u := (s.reach n).setTx .bReturnTx .free
    have he : exec (.gapEnd .bReturnTx) s = .next (serveB u) := exec_gapEnd (x := .bReturnTx) hr hb
    refine ⟨fun l e r hq hw hl => ?_, fun hq => ?_⟩
    · rw [he, serveB_entry (s := u) rfl hq hw hl]; rfl
    · rw [he, serveB_nothing (s := u) hq]; rfl

end Sys2Proof.Machine
end

section
/-! Frames as commands and back (O11). -/

namespace Sys2Proof.Machine

/-! ## Fields of several bytes -/

theorem bytes16_eq (x : BitVec 16) : bytes16 x = [x.toNat / 256, x.toNat].map (BitVec.ofNat 8) := by
  simp only [bytes16, BitVec.extractLsb', Nat.shiftRight_eq_div_pow, List.map_cons, List.map_nil, pow_zero, Nat.div_one]

/-- Fields of several bytes are carried most significant byte first (R197). -/
theorem bytes_asGiven : BytesAsGiven := by
  refine ⟨bytes16_eq, fun x => ?_, fun x => ?_, fun l => rfl⟩
  · simp only [bytes24, BitVec.extractLsb', Nat.shiftRight_eq_div_pow, List.map_cons, List.map_nil, pow_zero, Nat.div_one]
  · simp only [bytes32, BitVec.extractLsb', Nat.shiftRight_eq_div_pow, List.map_cons, List.map_nil, pow_zero, Nat.div_one]

@[simp] theorem length_bytes16 (x : BitVec 16) : (bytes16 x).length = 2 := rfl

theorem pair_toNat (hi lo : Byte) : (pair hi lo).toNat = hi.toNat * 256 + lo.toNat := by
  unfold pair
  rw [BitVec.toNat_append, Nat.shiftLeft_eq, Nat.mul_comm, ← Nat.two_pow_add_eq_or_of_lt lo.isLt]

theorem bytes16_pair (hi lo : Byte) : bytes16 (pair hi lo) = [hi, lo] := by
  rw [bytes16_eq, pair_toNat]
  have h1 := hi.isLt
  have h2 := lo.isLt
  simp only [List.map_cons, List.map_nil, List.cons.injEq, and_true]
  constructor <;> (apply BitVec.eq_of_toNat_eq; rw [BitVec.toNat_ofNat]; omega)

theorem bytes16_injective {x y : BitVec 16} (h : bytes16 x = bytes16 y) : x = y := by
  rw [bytes16_eq, bytes16_eq] at h
  simp only [List.map_cons, List.map_nil, List.cons.injEq, and_true] at h
  have h1 := congrArg BitVec.toNat h.1
  have h2 := congrArg BitVec.toNat h.2
  simp only [BitVec.toNat_ofNat] at h1 h2
  apply BitVec.eq_of_toNat_eq
  omega

/-- The two bytes of a field make the field (R197). -/
theorem pair_bytes16 (x : BitVec 16) : ∃ hi lo, bytes16 x = [hi, lo] ∧ pair hi lo = x :=
  ⟨_, _, rfl, bytes16_injective (bytes16_pair _ _)⟩

theorem quad_toNat (b3 b2 b1 b0 : Byte) :
    (quad b3 b2 b1 b0).toNat = b3.toNat * 16777216 + b2.toNat * 65536 + b1.toNat * 256 + b0.toNat := by
  have step : ∀ (n : Nat) (x : BitVec n) (b : Byte), (x ++ b).toNat = x.toNat * 256 + b.toNat := by
    intro n x b
    rw [BitVec.toNat_append, Nat.shiftLeft_eq, Nat.mul_comm, ← Nat.two_pow_add_eq_or_of_lt b.isLt]
  refine (step 24 (b3 ++ b2 ++ b1) b0).trans ?_
  rw [step 16 (b3 ++ b2) b1, step 8 b3 b2]
  omega

theorem pair_extract (x : BitVec 16) : pair (x.extractLsb' 8 8) (x.extractLsb' 0 8) = x :=
  bytes16_injective (bytes16_pair _ _)

theorem quad_extract (x : BitVec 32) :
    quad (x.extractLsb' 24 8) (x.extractLsb' 16 8) (x.extractLsb' 8 8) (x.extractLsb' 0 8) = x := by
  apply BitVec.eq_of_toNat_eq
  rw [quad_toNat]
  simp only [BitVec.extractLsb'_toNat, Nat.shiftRight_eq_div_pow]
  have := x.isLt
  omega

theorem bytes32_quad (b3 b2 b1 b0 : Byte) : bytes32 (quad b3 b2 b1 b0) = [b3, b2, b1, b0] := by
  have h3 := b3.isLt
  have h2 := b2.isLt
  have h1 := b1.isLt
  have h0 := b0.isLt
  simp only [bytes32, List.cons.injEq, and_true]
  refine ⟨?_, ?_, ?_, ?_⟩ <;>
    (apply BitVec.eq_of_toNat_eq
     rw [BitVec.extractLsb'_toNat, quad_toNat, Nat.shiftRight_eq_div_pow]
     omega)

/-- Two-byte fields laid out and read back (R197). -/
theorem halves_bytesOfHalves (xs : List (BitVec 16)) : halves (bytesOfHalves xs) = xs := by
  induction xs with
  | nil => rfl
  | cons x xs ih =>
    obtain ⟨hi, lo, hb, hx⟩ := pair_bytes16 x
    have : bytesOfHalves (x :: xs) = hi :: lo :: bytesOfHalves xs := by
      unfold bytesOfHalves; rw [List.flatMap_cons, hb]; rfl
    rw [this, halves, ih, hx]

theorem bytesOfHalves_halves {l : List Byte} {n : Nat} (h : l.length = 2 * n) :
    bytesOfHalves (halves l) = l ∧ (halves l).length = n := by
  induction n generalizing l with
  | zero =>
    obtain rfl : l = [] := List.length_eq_zero_iff.mp h
    exact ⟨rfl, rfl⟩
  | succ n ih =>
    match l, h with
    | hi :: lo :: rest, h =>
      obtain ⟨h1, h2⟩ := ih (l := rest) (by simp only [List.length_cons] at h; omega)
      refine ⟨?_, by rw [halves, List.length_cons, h2]⟩
      unfold bytesOfHalves at h1 ⊢
      rw [halves, List.flatMap_cons, h1, bytes16_pair]
      rfl

@[simp] theorem length_bytesOfHalves (xs : List (BitVec 16)) : (bytesOfHalves xs).length = 2 * xs.length := by
  induction xs with
  | nil => rfl
  | cons x xs ih =>
    have : bytesOfHalves (x :: xs) = bytes16 x ++ bytesOfHalves xs := rfl
    rw [this, List.length_append, ih, length_bytes16, List.length_cons]; omega

/-! ## Command codes -/

/-- Each known command has its code (R204). -/
theorem ofCode_eq_some {code : Byte} {c : Command} : Command.ofCode code = some c ↔ code = c.code := by
  constructor
  · intro h
    have step : ∀ {p : Prop} [Decidable p] {a : Command} {o : Option Command},
        (if p then some a else o) = some c → p ∧ a = c ∨ o = some c := by
      intro p _ a o h
      split at h
      · rename_i hp; cases h; exact .inl ⟨hp, rfl⟩
      · exact .inr h
    unfold Command.ofCode at h
    iterate 14
      obtain ⟨rfl, rfl⟩ | h := step h
      · rfl
    cases h
  · rintro rfl; cases c <;> rfl

/-- The codes and fixed argument bytes of R204 are those of the known commands. -/
theorem mem_commandCodes {code : Byte} {n : Nat} :
    (code, n) ∈ commandCodes ↔ ∃ c, Command.ofCode code = some c ∧ c.fixedBytes = n := by
  have hall : commandCodes = [Command.identify, .readStatus, .readChannels, .readInputs, .readTable, .openSession,
      .writeTable, .commit, .abortSession, .force, .release, .saveScene, .ackConditions, .restart].map
        fun c => (c.code, c.fixedBytes) := rfl
  simp only [ofCode_eq_some]
  rw [hall, List.mem_map]
  constructor
  · rintro ⟨c, -, h⟩
    cases h; exact ⟨c, rfl, rfl⟩
  · rintro ⟨c, rfl, rfl⟩
    exact ⟨c, by cases c <;> decide, rfl⟩

theorem ofCode_isNone_iff {code : Byte} : (Command.ofCode code).isNone = true ↔ ∀ n, (code, n) ∉ commandCodes := by
  simp only [mem_commandCodes]
  cases Command.ofCode code with
  | none => simp
  | some c => simp

theorem argsComplete_iff {code : Byte} {args : List Byte} :
    argsComplete code args = true ↔ ∀ n, (code, n) ∈ commandCodes → n ≤ args.length := by
  simp only [mem_commandCodes]
  unfold argsComplete
  cases Command.ofCode code with
  | none => simp
  | some c => simp

/-! ## The frames of the commands -/

theorem requestAsGiven_eq (h : RequestHeader) (code : Byte) (args : List Byte) :
    requestAsGiven h code args = some (rxOf h.port, requestFrame h code args) := by
  unfold requestAsGiven
  cases h.port <;> rfl

theorem encodeFrame_asGiven (i : Instr) : encodeFrame i = frameAsGiven i := by
  cases i
  case levelFrameA | levelFrameB | forwardFrame | relayFrame | bFrameDiscarded => rfl
  case requestNotTaken | badCommand | identify | readStatus | readChannels | readInputs | readTable | openSession
      | writeTable | commit | abortSession | force | release | saveScene | ackConditions | restart =>
    exact (requestAsGiven_eq _ _ _).symm
  all_goals rfl

/-- A request command is the frame of its header, code and arguments (R200, R204). -/
theorem encodeFrame_request {i : Instr} {h : RequestHeader} {code : Byte} {args : List Byte}
    (hp : requestParts i = some (h, code, args)) : encodeFrame i = some (rxOf h.port, requestFrame h code args) := by
  cases i <;> cases hp <;> rfl

theorem maxPayload_asGiven (kind : Byte) : maxPayload kind = payloadLimit kind := rfl

theorem lengthOk_iff (f : Frame) : f.lengthOk = true ↔ f.payload.length ≤ payloadLimit f.kind := decide_eq_true_iff

/-- The checks of a request command are the length of its payload and those of its kind (R5, R10, R204). -/
theorem wellFormed_request {i : Instr} {h : RequestHeader} {code : Byte} {args : List Byte}
    (hp : requestParts i = some (h, code, args)) :
    i.wellFormed = true ↔ args.length + 4 ≤ 256 ∧ MeetsChecks i := by
  have hl : ∀ l : List Byte, requestLengthOk l = true ↔ l.length + 4 ≤ 256 := fun _ => decide_eq_true_iff
  cases i <;> cases hp
  case requestNotTaken =>
    simp only [Instr.wellFormed, Bool.and_eq_true, decide_eq_true_eq, argsComplete_iff, hl, MeetsChecks]
    tauto
  case badCommand =>
    simp only [Instr.wellFormed, Bool.and_eq_true, ofCode_isNone_iff, hl, MeetsChecks]
    tauto
  all_goals
    simp only [Instr.wellFormed, MeetsChecks, and_true]
    exact hl _

theorem payload_requestFrame (h : RequestHeader) (code : Byte) (args : List Byte) :
    (requestFrame h code args).payload.length = args.length + 4 := rfl

theorem length_levelPayload (f : LevelFrame) : (levelFrame f).payload.length = 6 + 2 * f.levels.length := by
  simp [levelFrame, levelPayload]; omega

theorem levelWellFormed_iff (f : LevelFrame) :
    f.wellFormed = true ↔ 1 ≤ f.levels.length ∧ f.first.toNat + f.levels.length ≤ 384 := by
  unfold LevelFrame.wellFormed; simp

/-- The largest payload lets 384 levels through (R5). -/
theorem levelWellFormed_length {f : LevelFrame} (h : f.wellFormed = true) :
    (levelFrame f).payload.length ≤ payloadLimit (levelFrame f).kind := by
  have := (levelWellFormed_iff f).mp h
  rw [length_levelPayload]
  show _ ≤ 774
  omega

/-- The commands that are frames are five kinds of event and the requests. -/
theorem encodeFrame_cases {i : Instr} {r : Receiver} {f : Frame} (h : encodeFrame i = some (r, f)) :
    (∃ g, (i = .levelFrameA g ∧ r = .aRx ∨ i = .levelFrameB g ∧ r = .bRx) ∧ f = levelFrame g) ∨
    (i = .forwardFrame f ∧ r = .aRx ∨ i = .bFrameDiscarded f ∧ r = .bRx) ∨
    (i = .relayFrame f ∧ r = .dReturnRx) ∨
    (∃ g code args, requestParts i = some (g, code, args) ∧ r = rxOf g.port ∧ f = requestFrame g code args) := by
  cases i
  case levelFrameA g => cases h; exact .inl ⟨g, .inl ⟨rfl, rfl⟩, rfl⟩
  case levelFrameB g => cases h; exact .inl ⟨g, .inr ⟨rfl, rfl⟩, rfl⟩
  case forwardFrame g => cases h; exact .inr (.inl (.inl ⟨rfl, rfl⟩))
  case bFrameDiscarded g => cases h; exact .inr (.inl (.inr ⟨rfl, rfl⟩))
  case relayFrame g => cases h; exact .inr (.inr (.inl ⟨rfl, rfl⟩))
  case requestNotTaken | badCommand | identify | readStatus | readChannels | readInputs | readTable | openSession
      | writeTable | commit | abortSession | force | release | saveScene | ackConditions | restart =>
    cases h; exact .inr (.inr (.inr ⟨_, _, _, rfl, rfl, rfl⟩))
  all_goals cases h

/-- A command that is a frame is well formed within the largest payload and with the checks of its kind (R5, R10). -/
theorem wellFormed_frame {i : Instr} {r : Receiver} {f : Frame} (h : encodeFrame i = some (r, f)) :
    i.wellFormed = true ↔ f.payload.length ≤ payloadLimit f.kind ∧ MeetsChecks i := by
  have hcarried : ∀ f : Frame, (f.carriedOn && f.lengthOk) = true ↔
      f.payload.length ≤ payloadLimit f.kind ∧ f.kind ≠ 0x01 ∧ f.kind ≠ 0x10 := fun f => by
    rw [carriedOn_iff, maxPayload_asGiven, Nat.not_lt, and_comm]; rfl
  have hlevel : ∀ g : LevelFrame, g.wellFormed = true ↔
      (levelFrame g).payload.length ≤ payloadLimit (levelFrame g).kind ∧ 1 ≤ g.levels.length ∧
        g.first.toNat + g.levels.length ≤ 384 := fun g =>
    ⟨fun hw => ⟨levelWellFormed_length hw, (levelWellFormed_iff g).mp hw⟩, fun hw => (levelWellFormed_iff g).mpr hw.2⟩
  rcases encodeFrame_cases h with ⟨g, ⟨rfl, -⟩ | ⟨rfl, -⟩, rfl⟩ | (⟨rfl, -⟩ | ⟨rfl, -⟩) | ⟨rfl, -⟩ |
    ⟨g, code, args, hp, -, rfl⟩
  · exact hlevel g
  · exact hlevel g
  · exact hcarried f
  · exact hcarried f
  · exact (lengthOk_iff f).trans (and_iff_left trivial).symm
  · exact wellFormed_request hp

/-- The frames of the commands are those of chapters 1 and 10. -/
theorem frames_asGiven : FramesAsGiven := by
  refine ⟨bytes_asGiven, encodeFrame_asGiven, fun i h code args hp => ?_, fun i r f h => ?_, maxPayload_asGiven,
    lengthOk_iff, fun code => ?_⟩
  · rw [← encodeFrame_asGiven, encodeFrame_request hp, requestAsGiven_eq]
  · exact wellFormed_frame ((encodeFrame_asGiven i).trans h)
  · simp only [mem_commandCodes]
    cases Command.ofCode code <;> simp

/-! ## LEVEL frames read back -/

/-- A stream byte below 16 is its low half (R199). -/
theorem streamByte_of_high {b : Byte} (h : b.extractLsb' 4 4 = 0) : (b.setWidth 4).setWidth 8 = b := by
  have h1 := congrArg BitVec.toNat h
  rw [BitVec.extractLsb'_toNat, Nat.shiftRight_eq_div_pow] at h1
  have := b.isLt
  apply BitVec.eq_of_toNat_eq
  simp only [BitVec.toNat_setWidth, BitVec.ofNat_eq_ofNat, BitVec.toNat_ofNat] at h1 ⊢
  omega

theorem streamByte_high (x : BitVec 4) : (x.setWidth 8).extractLsb' 4 4 = 0 := by
  apply BitVec.eq_of_toNat_eq
  have := x.isLt
  simp only [BitVec.extractLsb'_toNat, Nat.shiftRight_eq_div_pow, BitVec.toNat_setWidth, BitVec.ofNat_eq_ofNat, BitVec.toNat_ofNat]
  omega

theorem streamByte_low (x : BitVec 4) : (x.setWidth 8).setWidth 4 = x := by
  apply BitVec.eq_of_toNat_eq
  have := x.isLt
  simp only [BitVec.toNat_setWidth]
  omega

/-- A payload decodes to a LEVEL frame exactly when it is the payload of that frame, well formed (R10, R199). -/
theorem decodeLevel_eq_some {payload : List Byte} {f : LevelFrame} :
    decodeLevel payload = some f ↔ f.wellFormed = true ∧ levelFrame f = ⟨Frame.levelKind, payload⟩ := by
  constructor
  · intro h
    unfold decodeLevel at h
    split at h
    next stream sequence f1 f0 c1 c0 rest =>
      dsimp only at h
      split at h
      · cases h
      next hok =>
        simp only [not_or, not_not, Nat.not_lt, Config.channels] at hok
        obtain ⟨hstream, hcount, hrest, hlast⟩ := hok
        obtain ⟨hhalves, hlen⟩ := bytesOfHalves_halves hrest
        cases h
        refine ⟨(levelWellFormed_iff _).mpr ⟨?_, ?_⟩, ?_⟩
        · rw [hlen]; omega
        · rw [hlen]; exact hlast
        · have hs : (stream.setWidth 4).setWidth 8 = stream := streamByte_of_high hstream
          simp only [levelFrame, levelPayload, hlen, hhalves, bytes16_pair, BitVec.ofNat_toNat, BitVec.setWidth_eq, hs,
            List.cons_append, List.nil_append]
    · cases h
  · rintro ⟨hw, hf⟩
    obtain ⟨hsome, hlast⟩ := (levelWellFormed_iff f).mp hw
    cases hf
    obtain ⟨f1, f0, hfirst, hpf⟩ := pair_bytes16 f.first
    obtain ⟨c1, c0, hcount, hpc⟩ := pair_bytes16 (BitVec.ofNat 16 f.levels.length)
    have hn : (BitVec.ofNat 16 f.levels.length).toNat = f.levels.length := by rw [BitVec.toNat_ofNat]; omega
    simp only [levelPayload, hfirst, hcount, List.cons_append, List.nil_append, decodeLevel, hpf, hpc, hn,
      length_bytesOfHalves, halves_bytesOfHalves, Config.channels, streamByte_high, streamByte_low]
    exact if_neg (by simp only [ne_eq, not_true_eq_false, false_or]; omega)

/-! ## Requests read back -/

/-- A REQUEST that a code and its arguments make has them as its parts, and is a taken one. -/
theorem decodeCommand_parts {h : RequestHeader} {code : Byte} {args : List Byte} {i : Instr}
    (hd : decodeCommand h code args = some i) :
    requestParts i = some (h, code, args) ∧ MeetsChecks i ∧ i ≠ .requestNotTaken h code args := by
  unfold decodeCommand at hd
  cases hc : Command.ofCode code with
  | none =>
    rw [hc] at hd
    cases hd
    exact ⟨rfl, ofCode_isNone_iff.mp (by rw [hc]; rfl), nofun⟩
  | some command =>
    rw [hc] at hd
    obtain rfl := ofCode_eq_some.mp hc
    cases command
    case identify | readStatus | restart =>
      cases hd
      exact ⟨rfl, trivial, nofun⟩
    all_goals
      dsimp only at hd
      split at hd
      · cases hd
        exact ⟨by simp only [requestParts, argsReadChannels, argsReadInputs, argsReadTable, argsWriteTable, argsCommit,
          argsForce, argsRelease, bytes16_pair, bytes32_quad, List.cons_append, List.nil_append], trivial, nofun⟩
      · cases hd

/-- Parts of a taken REQUEST make it again (R204). -/
theorem decodeCommand_of_parts {h : RequestHeader} {code : Byte} {args : List Byte} {i : Instr}
    (hp : requestParts i = some (h, code, args)) (hc : MeetsChecks i) (hn : i ≠ .requestNotTaken h code args) :
    decodeCommand h code args = some i := by
  have code_of : ∀ c : Command, Command.ofCode c.code = some c := fun c => ofCode_eq_some.mpr rfl
  cases i <;> cases hp
  case requestNotTaken => exact absurd rfl hn
  case badCommand =>
    unfold decodeCommand
    rw [Option.isNone_iff_eq_none.mp (ofCode_isNone_iff.mpr hc)]
  all_goals
    simp only [decodeCommand, code_of, argsReadChannels, argsReadInputs, argsReadTable, argsWriteTable, argsCommit,
      argsForce, argsRelease, bytes16, bytes32, List.cons_append, List.nil_append, pair_extract, quad_extract]

/-- The fixed fields of a command have their number of bytes (R204). -/
theorem argsComplete_of_parts {h : RequestHeader} {code : Byte} {args : List Byte} {i : Instr}
    (hp : requestParts i = some (h, code, args)) (hc : MeetsChecks i) : argsComplete code args = true := by
  have fixed : ∀ (c : Command) (fields extra : List Byte), fields.length = c.fixedBytes →
      argsComplete c.code (fields ++ extra) = true := fun c fields extra hl => by
    unfold argsComplete
    simp only [ofCode_eq_some.mpr rfl]
    rw [List.length_append, hl]
    exact decide_eq_true (Nat.le_add_right _ _)
  cases i <;> cases hp
  case requestNotTaken => exact argsComplete_iff.mpr hc.2
  case badCommand => exact argsComplete_iff.mpr fun n hn => absurd hn (hc n)
  case identify => exact fixed .identify [] _ rfl
  case readStatus => exact fixed .readStatus [] _ rfl
  case saveScene x e => exact fixed .saveScene [x] e rfl
  case restart => exact fixed .restart [] _ rfl
  case readChannels => exact fixed .readChannels _ _ rfl
  case readInputs => exact fixed .readInputs _ _ rfl
  case readTable => exact fixed .readTable _ _ rfl
  case openSession => exact fixed .openSession _ _ rfl
  case writeTable => exact fixed .writeTable _ _ rfl
  case commit => exact fixed .commit _ _ rfl
  case abortSession => exact fixed .abortSession _ _ rfl
  case force => exact fixed .force _ _ rfl
  case release => exact fixed .release _ _ rfl
  case ackConditions => exact fixed .ackConditions _ _ rfl

/-- The destination says whether this part takes a REQUEST (R128). -/
def DestinationAgrees (node : Byte) (c : Instr) : Prop :=
  ∀ h code args, requestParts c = some (h, code, args) →
    (c = .requestNotTaken h code args ↔ h.destination ≠ node ∧ h.destination ≠ 0)

/-- A REQUEST payload decodes to a command exactly when the command has the checks of its kind, its frame is that payload's,
and the destination says whether it is taken (R10, R128, R200). -/
theorem decodeRequest_eq_some {node : Byte} {p : Port} {payload : List Byte} {i : Instr} :
    decodeRequest node p payload = some i ↔
      (∃ h code args, requestParts i = some (h, code, args) ∧ h.port = p ∧
        requestFrame h code args = ⟨Frame.requestKind, payload⟩) ∧ MeetsChecks i ∧ DestinationAgrees node i := by
  constructor
  · intro hd
    unfold decodeRequest at hd
    split at hd
    next destination tag code reserved args =>
      dsimp only at hd
      split at hd
      · cases hd
      next j hj =>
        obtain ⟨hparts, hchecks, htaken⟩ := decodeCommand_parts hj
        split at hd
        next hdest =>
          cases hd
          refine ⟨⟨_, _, _, hparts, rfl, rfl⟩, hchecks, fun h' code' args' hp' => ?_⟩
          rw [hparts] at hp'
          cases hp'
          exact iff_of_false htaken fun hn => hdest.elim hn.1 hn.2
        next hdest =>
          cases hd
          rw [not_or] at hdest
          refine ⟨⟨_, _, _, rfl, rfl, rfl⟩, ⟨hdest.2, argsComplete_iff.mp (argsComplete_of_parts hparts hchecks)⟩,
            fun h' code' args' hp' => ?_⟩
          cases hp'
          exact iff_of_true rfl hdest
    · cases hd
  · rintro ⟨⟨⟨port, dest, tag, res⟩, code, args, hparts, rfl, hframe⟩, hchecks, hdest⟩
    cases hframe
    have hdest := hdest _ _ _ hparts
    simp only [decodeRequest]
    by_cases hnot : i = .requestNotTaken ⟨port, dest, tag, res⟩ code args
    · obtain ⟨j, hj⟩ := decodeCommand_some (h := ⟨port, dest, tag, res⟩) (argsComplete_of_parts hparts hchecks)
      simp only [hj]
      rw [if_neg (not_or.mpr (hdest.mp hnot)), hnot]
    · simp only [decodeCommand_of_parts hparts hchecks hnot]
      rw [if_pos (by by_contra hn; exact hnot (hdest.mpr (not_or.mp hn)))]

/-! ## Frames at the receivers -/

theorem orFormat_eq_ok {o : Option Instr} {c : Instr} : orFormat o = .ok c ↔ o = some c := by
  cases o <;> simp [orFormat]

theorem orFormat_eq_error {o : Option Instr} {e : DetectedError} (h : orFormat o = .error e) : e = .format := by
  cases o <;> cases h
  rfl

/-- The command that a LEVEL frame is at an input receiver. -/
def levelAt (p : Port) (g : LevelFrame) : Instr :=
  match p with
  | .a => .levelFrameA g
  | .b => .levelFrameB g

/-- The command that a frame of another kind than LEVEL and REQUEST is at an input receiver. -/
def otherAt (p : Port) (f : Frame) : Instr :=
  match p with
  | .a => .forwardFrame f
  | .b => .bFrameDiscarded f

/-- What a frame within its largest payload is at an input receiver, by its kind (R7, R10, R13). -/
theorem decodeFrame_rxOf {node : Byte} {p : Port} {f : Frame} (hl : f.payload.length ≤ payloadLimit f.kind) :
    decodeFrame node (rxOf p) f =
      if f.kind = Frame.levelKind then orFormat ((decodeLevel f.payload).map (levelAt p))
      else if f.kind = Frame.requestKind then orFormat (decodeRequest node p f.payload)
      else .ok (otherAt p f) := by
  cases p <;> exact if_neg (Nat.not_lt.mpr hl)

theorem decodeFrame_long {node : Byte} {r : Receiver} {f : Frame} (hl : ¬ f.payload.length ≤ payloadLimit f.kind) :
    decodeFrame node r f = .error .length :=
  if_pos (Nat.not_le.mp hl)

theorem encodeFrame_levelAt (p : Port) (g : LevelFrame) : encodeFrame (levelAt p g) = some (rxOf p, levelFrame g) := by
  cases p <;> rfl

theorem meetsChecks_levelAt {p : Port} {g : LevelFrame} : MeetsChecks (levelAt p g) ↔ g.wellFormed = true := by
  cases p <;> exact (levelWellFormed_iff g).symm

theorem encodeFrame_otherAt (p : Port) (f : Frame) : encodeFrame (otherAt p f) = some (rxOf p, f) := by
  cases p <;> rfl

theorem meetsChecks_otherAt {p : Port} {f : Frame} :
    MeetsChecks (otherAt p f) ↔ f.kind ≠ Frame.levelKind ∧ f.kind ≠ Frame.requestKind := by
  cases p <;> rfl

/-- The commands that are frames at an input receiver. -/
theorem encodeFrame_rxOf {c : Instr} {p : Port} {f : Frame} (h : encodeFrame c = some (rxOf p, f)) :
    (∃ g, c = levelAt p g ∧ f = levelFrame g) ∨ c = otherAt p f ∨
      ∃ g code args, requestParts c = some (g, code, args) ∧ g.port = p ∧ f = requestFrame g code args := by
  have hport : ∀ {q : Port}, rxOf p = rxOf q → q = p := by intro q; cases p <;> cases q <;> simp [rxOf]
  rcases encodeFrame_cases h with ⟨g, ⟨rfl, hr⟩ | ⟨rfl, hr⟩, rfl⟩ | (⟨rfl, hr⟩ | ⟨rfl, hr⟩) | ⟨-, hr⟩ |
    ⟨g, code, args, hp, hr, rfl⟩
  · cases p <;> cases hr; exact .inl ⟨g, rfl, rfl⟩
  · cases p <;> cases hr; exact .inl ⟨g, rfl, rfl⟩
  · cases p <;> cases hr; exact .inr (.inl rfl)
  · cases p <;> cases hr; exact .inr (.inl rfl)
  · cases p <;> cases hr
  · exact .inr (.inr ⟨g, code, args, hp, hport hr, rfl⟩)

/-- A LEVEL frame at an input receiver decodes to the command that it carries (R10, R199). -/
theorem decodeFrame_level {node : Byte} {p : Port} {f : Frame} {c : Instr} (hk : f.kind = Frame.levelKind) :
    orFormat ((decodeLevel f.payload).map (levelAt p)) = .ok c ↔
      encodeFrame c = some (rxOf p, f) ∧ MeetsChecks c ∧ DestinationAgrees node c := by
  obtain ⟨kind, payload⟩ := f
  obtain rfl : kind = Frame.levelKind := hk
  rw [orFormat_eq_ok, Option.map_eq_some_iff]
  constructor
  · rintro ⟨g, hg, rfl⟩
    obtain ⟨hw, hf⟩ := decodeLevel_eq_some.mp hg
    refine ⟨by rw [encodeFrame_levelAt, hf], meetsChecks_levelAt.mpr hw, ?_⟩
    intro h code args hp
    cases p <;> cases hp
  · rintro ⟨henc, hchecks, -⟩
    obtain ⟨g, rfl, hf⟩ | rfl | ⟨g, code, args, -, -, hf⟩ := encodeFrame_rxOf henc
    · exact ⟨g, decodeLevel_eq_some.mpr ⟨meetsChecks_levelAt.mp hchecks, hf.symm⟩, rfl⟩
    · exact absurd rfl (meetsChecks_otherAt.mp hchecks).1
    · cases hf

/-- A REQUEST frame at an input receiver decodes to the command that it carries (R10, R128, R200). -/
theorem decodeFrame_request {node : Byte} {p : Port} {f : Frame} {c : Instr} (hk : f.kind = Frame.requestKind) :
    orFormat (decodeRequest node p f.payload) = .ok c ↔
      encodeFrame c = some (rxOf p, f) ∧ MeetsChecks c ∧ DestinationAgrees node c := by
  obtain ⟨kind, payload⟩ := f
  obtain rfl : kind = Frame.requestKind := hk
  rw [orFormat_eq_ok, decodeRequest_eq_some]
  constructor
  · rintro ⟨⟨h, code, args, hparts, rfl, hf⟩, hrest⟩
    exact ⟨by rw [encodeFrame_request hparts, hf], hrest⟩
  · rintro ⟨henc, hchecks, hdest⟩
    refine ⟨?_, hchecks, hdest⟩
    obtain ⟨g, rfl, hf⟩ | rfl | ⟨g, code, args, hparts, hport, hf⟩ := encodeFrame_rxOf henc
    · cases hf
    · exact absurd rfl (meetsChecks_otherAt.mp hchecks).2
    · exact ⟨g, code, args, hparts, hport, hf.symm⟩

/-- A frame of another kind at an input receiver is carried as it is (R13). -/
theorem decodeFrame_other {node : Byte} {p : Port} {f : Frame} {c : Instr} (hl : f.kind ≠ Frame.levelKind)
    (hr : f.kind ≠ Frame.requestKind) :
    otherAt p f = c ↔ encodeFrame c = some (rxOf p, f) ∧ MeetsChecks c ∧ DestinationAgrees node c := by
  constructor
  · rintro rfl
    refine ⟨encodeFrame_otherAt p f, meetsChecks_otherAt.mpr ⟨hl, hr⟩, ?_⟩
    intro h code args hp
    cases p <;> cases hp
  · rintro ⟨henc, -, -⟩
    obtain ⟨g, -, rfl⟩ | rfl | ⟨g, code, args, -, -, rfl⟩ := encodeFrame_rxOf henc
    · exact absurd rfl hl
    · rfl
    · exact absurd rfl hr

/-- A frame completed at D-return-rx is relayed as it is (R13). -/
theorem decodeFrame_dReturn {node : Byte} {f : Frame} {c : Instr} :
    Instr.relayFrame f = c ↔ encodeFrame c = some (.dReturnRx, f) ∧ MeetsChecks c ∧ DestinationAgrees node c := by
  constructor
  · rintro rfl
    exact ⟨rfl, trivial, nofun⟩
  · rintro ⟨henc, -, -⟩
    rcases encodeFrame_cases henc with ⟨g, ⟨-, hr⟩ | ⟨-, hr⟩, -⟩ | (⟨-, hr⟩ | ⟨-, hr⟩) | ⟨rfl, -⟩ |
      ⟨g, code, args, -, hr, -⟩
    · cases hr
    · cases hr
    · cases hr
    · cases hr
    · rfl
    · revert hr; cases g.port <;> nofun

/-- A frame within its largest payload decodes to a command exactly when it is that command's frame, with the checks and
the destination of the command (R10, R13, R128). -/
theorem decodeFrame_eq_ok {node : Byte} {r : Receiver} {f : Frame} {c : Instr}
    (hl : f.payload.length ≤ payloadLimit f.kind) :
    decodeFrame node r f = .ok c ↔ encodeFrame c = some (r, f) ∧ MeetsChecks c ∧ DestinationAgrees node c := by
  have input : ∀ p, decodeFrame node (rxOf p) f = .ok c ↔
      encodeFrame c = some (rxOf p, f) ∧ MeetsChecks c ∧ DestinationAgrees node c := by
    intro p
    rw [decodeFrame_rxOf hl]
    split
    next hk => exact decodeFrame_level hk
    next hlevel =>
      split
      next hk => exact decodeFrame_request hk
      next hrequest => exact (Except.ok.injEq _ _).to_iff.trans (decodeFrame_other hlevel hrequest)
  cases r with
  | aRx => exact input .a
  | bRx => exact input .b
  | dReturnRx =>
    have : decodeFrame node .dReturnRx f = .ok (.relayFrame f) := if_neg (Nat.not_lt.mpr hl)
    rw [this, Except.ok.injEq]
    exact decodeFrame_dReturn

/-- A frame with too long a payload is a LENGTH error, any other that is no command a FORMAT error (R5, R10). -/
theorem decodeFrame_eq_error {node : Byte} {r : Receiver} {f : Frame} {e : DetectedError}
    (h : decodeFrame node r f = .error e) : e = if f.payload.length ≤ payloadLimit f.kind then .format else .length := by
  by_cases hl : f.payload.length ≤ payloadLimit f.kind
  · have input : ∀ p, decodeFrame node (rxOf p) f = .error e → e = .format := by
      intro p hp
      rw [decodeFrame_rxOf hl] at hp
      split at hp
      · exact orFormat_eq_error hp
      · split at hp
        · exact orFormat_eq_error hp
        · cases hp
    rw [if_pos hl]
    cases r with
    | aRx => exact input .a h
    | bRx => exact input .b h
    | dReturnRx => rw [decodeFrame_relay ((lengthOk_iff f).mpr hl)] at h; cases h
  · rw [decodeFrame_long hl] at h
    cases h
    rw [if_neg hl]

/-- Settles O11: each kind of frame is read back field by field, and its checks are those of the command it carries. -/
theorem decodingAgreesWithEncoding : Obligations.DecodingAgreesWithEncoding := by
  refine ⟨frames_asGiven, fun node r f => ⟨fun c => ?_, fun e => decodeFrame_eq_error⟩⟩
  by_cases hl : f.payload.length ≤ payloadLimit f.kind
  · refine (decodeFrame_eq_ok hl).trans (and_congr_right fun henc => and_congr_left' ?_)
    exact (wellFormed_frame henc).trans (and_iff_right hl) |>.symm
  · refine iff_of_false (fun hd => ?_) fun ⟨henc, hw, _⟩ => hl ((wellFormed_frame henc).mp hw).1
    rw [decodeFrame_long hl] at hd
    cases hd

end Sys2Proof.Machine
end

section
/-! The characters of a frame as the command the frame is (O10). -/

namespace Sys2Proof.Machine

/-! ## Good characters -/

theorem goodCharacter_byte (b : Byte) : (goodCharacter b).extractLsb' 1 8 = b := by
  apply BitVec.eq_of_getLsbD_eq
  intro i hi
  rw [BitVec.getLsbD_extractLsb', goodCharacter_bits b (by omega)]
  simp [hi, Nat.add_comm 1 i]
  omega

/-- The characters of a frame and their samples are those of R1 and R4. -/
theorem characters_asGiven : CharactersAsGiven := by
  refine ⟨frameCharacters_eq, fun b =>
    ⟨goodCharacter_bits b (by decide), goodCharacter_bits b (by decide), fun i hi => ?_⟩⟩
  rw [goodCharacter_bits b (by omega), if_neg (by omega), if_neg (by omega), Nat.add_sub_cancel]

/-- A good character, looked at, is handed to the frame logic (R1, R2, R6). -/
theorem characterOp_goodCharacter {r : Receiver} {b : Byte} {s : State} (ha : (s.rx.get r).awaitHigh = false) :
    characterOp r (goodCharacter b) s = goodCharacterOp r b (beforeCharacter r s) := by
  rw [characterOp_eq (goodCharacter_bits b (by decide)) ha, goodCharacter_byte]
  exact if_pos (goodCharacter_bits b (by decide))

theorem receiveAll_cons {r : Receiver} {b : Byte} {bs : List Byte} {s : State} (h : s.inReset = false) :
    receiveAll r (b :: bs) s = receiveAll r bs (characterOp r (goodCharacter b) s) := by
  have : exec (.characterReceived r (goodCharacter b)) s = .next (characterOp r (goodCharacter b) s) := whenRunning_next h
  rw [receiveAll, this]

/-! ## A receiver within a frame -/

/-- The part as it is, with one receiver that took the last character so far of a frame at an instant (R7, R8). -/
def receivingAt (r : Receiver) (s : State) (n : Nat) (buffer : List Byte) (expected : Option Nat)
    (crcFirst : Option Byte) : State :=
  { s with
    now := n
    rx := s.rx.set r {
      phase := .receiving
      buffer := buffer
      crc := crc16 buffer
      expected := expected
      crcFirst := crcFirst
      lastError := (s.rx.get r).lastError
      awaitHigh := false
      idleSince := some n
      edgeFrom := n + 4 } }

section

variable {r : Receiver} {s : State} {n : Nat} {buffer rest : List Byte} {b : Byte}

theorem receivingAt_rx (expected : Option Nat) (crcFirst : Option Byte) :
    (receivingAt r s n buffer expected crcFirst).rx.get r =
      ⟨.receiving, buffer, crc16 buffer, expected, crcFirst, (s.rx.get r).lastError, false, some n, n + 4⟩ :=
  PerRx.get_set_self _ _ _

/-- The next character of the frame comes in time, 4 µs after the one before it (R1, R3, R9). -/
theorem receiveAll_receiving (h : s.inReset = false) (expected : Option Nat) (crcFirst : Option Byte) :
    receiveAll r (b :: rest) (receivingAt r s n buffer expected crcFirst) =
      receiveAll r rest (receiveByte r b { receivingAt r s n buffer expected crcFirst with now := n + 80 }) := by
  set t := receivingAt r s n buffer expected crcFirst with ht
  have hx := receivingAt_rx (r := r) (s := s) (n := n) (buffer := buffer) expected crcFirst
  rw [← ht] at hx
  have hnow : t.now = n := rfl
  have hstop : stopSample r t = n + 80 := by
    unfold stopSample; rw [hx, hnow]; simp only [Config.sampleClocks]; omega
  have hbefore : beforeCharacter r t = { t with now := n + 80 } := by
    rw [beforeCharacter_quiet, hstop, State.reach_of_le (by omega)]
    intro m hm
    rw [hx] at hm
    cases hm
    rw [hstop, hx]
    exact ⟨nofun, fun _ => by omega⟩
  rw [receiveAll_cons (s := t) h, characterOp_goodCharacter (by rw [hx]), hbefore]
  unfold goodCharacterOp
  simp only [hx]

theorem crc16_append_singleton (l : List Byte) (b : Byte) : crc16 (l ++ [b]) = crc16Byte (crc16 l) b := by
  unfold crc16; rw [List.foldl_append]; rfl

/-- The kind and the first length character (R7). -/
theorem receiveAll_header (h : s.inReset = false) (hb : buffer.length < 2) :
    receiveAll r (b :: rest) (receivingAt r s n buffer none none) =
      receiveAll r rest (receivingAt r s (n + 80) (buffer ++ [b]) none none) := by
  rw [receiveAll_receiving h]
  unfold receiveByte
  simp only [receivingAt_rx, Rx.store, Rx.measureFrom, List.length_append, List.length_singleton]
  rw [if_pos (by omega)]
  simp only [receivingAt, State.setRx, PerRx.set_set, crc16_append_singleton, Config.halfBitClocks]

/-- The second length character: the payload it announces is a LENGTH error or is awaited (R5, R7, R10). -/
theorem receiveAll_length (h : s.inReset = false) (kind hi : Byte) :
    receiveAll r (b :: rest) (receivingAt r s n [kind, hi] none none) =
      receiveAll r rest (if maxPayload kind < (pair hi b).toNat then
          errorAtSample r .length { receivingAt r s n [kind, hi] none none with now := n + 80 }
        else receivingAt r s (n + 80) [kind, hi, b] (some (pair hi b).toNat) none) := by
  rw [receiveAll_receiving h]
  unfold receiveByte
  simp only [receivingAt_rx, Rx.store, Rx.measureFrom, List.cons_append, List.nil_append]
  rw [if_neg (by simp)]
  have hl : headerLength [kind, hi, b] = (pair hi b).toNat := rfl
  have hk : byteAt [kind, hi, b] 0 = kind := rfl
  rw [hl, hk]
  congr 1
  split
  · rfl
  · simp only [receivingAt, State.setRx, PerRx.set_set, Config.halfBitClocks]
    rfl

/-- A payload character (R7). -/
theorem receiveAll_payloadByte (h : s.inReset = false) (m : Nat) :
    receiveAll r (b :: rest) (receivingAt r s n buffer (some (m + 1)) none) =
      receiveAll r rest (receivingAt r s (n + 80) (buffer ++ [b]) (some m) none) := by
  rw [receiveAll_receiving h]
  unfold receiveByte
  simp only [receivingAt_rx, Rx.store, Rx.measureFrom]
  simp only [receivingAt, State.setRx, PerRx.set_set, crc16_append_singleton, Config.halfBitClocks]

/-- The payload characters (R7). -/
theorem receiveAll_payload (h : s.inReset = false) (payload : List Byte) :
    receiveAll r (payload ++ rest) (receivingAt r s n buffer (some payload.length) none) =
      receiveAll r rest (receivingAt r s (n + 80 * payload.length) (buffer ++ payload) (some 0) none) := by
  induction payload generalizing n buffer with
  | nil => rw [List.append_nil]; rfl
  | cons b payload ih =>
    rw [List.cons_append, List.length_cons, receiveAll_payloadByte h, ih, List.append_assoc, List.singleton_append]
    congr 2
    omega

/-- The two CRC characters: the frame completes, or its CRC is another (R7, R10). -/
theorem receiveAll_crc (h : s.inReset = false) (x : Crc16) :
    ∃ hi, receiveAll r (bytes16 x) (receivingAt r s n buffer (some 0) none) =
      .next (if x = crc16 buffer then
          completeFrame r ⟨byteAt buffer 0, buffer.drop 3⟩
            { receivingAt r s (n + 80) buffer (some 0) (some hi) with now := n + 80 * 2 }
        else errorAtSample r .crc { receivingAt r s (n + 80) buffer (some 0) (some hi) with now := n + 80 * 2 }) := by
  obtain ⟨hi, lo, hbytes, rfl⟩ := pair_bytes16 x
  have hfirst : receiveByte r hi { receivingAt r s n buffer (some 0) none with now := n + 80 } =
      receivingAt r s (n + 80) buffer (some 0) (some hi) := by
    unfold receiveByte
    simp only [receivingAt_rx, Rx.measureFrom]
    simp only [receivingAt, State.setRx, PerRx.set_set, Config.halfBitClocks]
  refine ⟨hi, ?_⟩
  rw [hbytes, receiveAll_receiving h, hfirst, receiveAll_receiving h, receiveAll]
  unfold receiveByte
  simp only [receivingAt_rx]

/-! ## What a frame that ends leaves of its reception -/

/-- Only the last error kind outlives a frame (R11). -/
theorem settle_receivingAt (m : Nat) (expected : Option Nat) (crcFirst : Option Byte) :
    settle r { receivingAt r s n buffer expected crcFirst with now := m } = settle r { s with now := m } := by
  unfold settle
  simp only [receivingAt_rx]
  simp only [receivingAt, State.setRx, PerRx.set_set]
  rfl

theorem errorAtSample_receivingAt {e : DetectedError} (he : e ≠ .character) (m : Nat) (expected : Option Nat)
    (crcFirst : Option Byte) :
    errorAtSample r e { receivingAt r s n buffer expected crcFirst with now := m } =
      errorAtSample r e { s with now := m } := by
  have hrx : ∀ (t : State) (u : Rx), receiveErrorOp r (errorKind e) (t.setRx r u) =
      reportBadFrame r (latch .frameError (t.setRx r { u.settled with lastError := some (errorKind e) })) := fun t u => by
    unfold receiveErrorOp
    simp only [State.setRx, PerRx.get_set_self, PerRx.set_set]
  cases e
  case character => exact absurd rfl he
  all_goals
    rw [errorAtSample_eq, errorAtSample_eq, hrx, hrx]
    simp only [receivingAt_rx]
    simp only [receivingAt, State.setRx, PerRx.set_set]
    rfl

end

/-- A frame, or an error of one, that ends in either of two states leaves the same of the part. -/
structure FrameEndsAlike (r : Receiver) (t u : State) : Prop where
  node : t.node = u.node
  settles : settle r t = settle r u
  fails : ∀ e, e ≠ .character → errorAtSample r e t = errorAtSample r e u

theorem receivingAt_endsAlike (r : Receiver) (s : State) (n m : Nat) (buffer : List Byte) (expected : Option Nat)
    (crcFirst : Option Byte) :
    FrameEndsAlike r { receivingAt r s n buffer expected crcFirst with now := m } { s with now := m } :=
  ⟨rfl, settle_receivingAt _ _ _, fun _ he => errorAtSample_receivingAt he _ _ _⟩

/-! ## A frame that completes is the command it carries -/

/-- The management unit has a REQUEST within the largest payload from its receiver settled (R5, R13). -/
theorem onRequest_settle (form : BroadcastForm) (h : RequestHeader) {code : Byte} {args : List Byte}
    (carry : State → Carried) (hl : requestLengthOk args = true) :
    ∃ after : State → State, ∀ s, onRequest form h code args carry s = after (settle (rxOf h.port) s) :=
  ⟨takeRequest form h code args carry, fun _ => if_neg (Nat.not_lt.mpr (of_decide_eq_true hl))⟩

theorem onLevelA_settle {f : LevelFrame} (hw : f.wellFormed = true) (s : State) :
    onLevelA f s = levelAtA f (settle .aRx s) := by
  unfold onLevelA; rw [levelError_none hw]

theorem onLevelB_settle {f : LevelFrame} (hw : f.wellFormed = true) (s : State) :
    onLevelB f s = levelAtB f (settle .bRx s) := by
  unfold onLevelB; rw [levelError_none hw]

/-- A well-formed frame that completes has its effect on the part with its receiver settled (R13). -/
theorem runFrameCommand_settle {c : Instr} {r : Receiver} {f : Frame} (henc : encodeFrame c = some (r, f))
    (hw : c.wellFormed = true) : ∃ after : State → State, ∀ s, runFrameCommand c s = after (settle r s) := by
  cases c <;> cases henc
  case levelFrameA g => exact ⟨levelAtA g, onLevelA_settle hw⟩
  case levelFrameB g => exact ⟨levelAtB g, onLevelB_settle hw⟩
  case forwardFrame => exact ⟨forwardPath f, fun s => rfl⟩
  case relayFrame => exact ⟨relayPath f, fun s => rfl⟩
  case bFrameDiscarded => exact ⟨id, fun s => rfl⟩
  case requestNotTaken h code args => exact ⟨handOn h code args, fun s => rfl⟩
  case badCommand h code args => exact onRequest_settle _ h _ (Bool.and_eq_true_iff.mp hw).2
  all_goals exact onRequest_settle _ _ _ hw

/-- The command that a frame decodes to has the frame's effect (R13). -/
theorem exec_decoded {c : Instr} {r : Receiver} {f : Frame} {s : State} (h : s.inReset = false)
    (hd : decodeFrame s.node r f = .ok c) : exec c s = .next (runFrameCommand c s) := by
  have henc := ((decodingAgreesWithEncoding.2 s.node r f).1 c).mp hd |>.1
  have hcomplete : completeFrame r f s = runFrameCommand c s := completeFrame_ok hd
  cases c <;> cases henc
  case forwardFrame | relayFrame | bFrameDiscarded | requestNotTaken | badCommand =>
    rw [← hcomplete]; exact whenRunning_next h
  all_goals exact whenRunning_next h

theorem decodeFrame_ne_character {node : Byte} {r : Receiver} {f : Frame} {e : DetectedError}
    (h : decodeFrame node r f = .error e) : e ≠ .character := by
  have := decodeFrame_eq_error h
  rintro rfl
  split at this <;> cases this

/-- A receive error that a completing frame is, as the command for it (R11). -/
theorem exec_receiveError {r : Receiver} {e : DetectedError} {s : State} (h : s.inReset = false)
    (hd : ¬ (r = .dReturnRx ∧ e = .format)) : exec (.receiveError r e) s = .next (errorAtSample r e s) := by
  refine (whenRunning_next h).trans ?_
  unfold receiveErrorEvent
  rw [if_neg hd]

/-- D-return-rx checks no payload (R10). -/
theorem decodeFrame_dReturn_ne_format {node : Byte} {r : Receiver} {f : Frame} {e : DetectedError}
    (h : decodeFrame node r f = .error e) : ¬ (r = .dReturnRx ∧ e = .format) := by
  rintro ⟨rfl, rfl⟩
  unfold decodeFrame at h
  split at h <;> cases h

/-- A receiver that hunts takes the sync character (R6). -/
theorem receiveAll_sync {r : Receiver} {s : State} {rest : List Byte} (h : s.inReset = false)
    (hp : (s.rx.get r).phase = .hunting) (ha : (s.rx.get r).awaitHigh = false) :
    receiveAll r (0xC3 :: rest) s = receiveAll r rest (receivingAt r s (stopSample r s) [] none none) := by
  have hbefore : beforeCharacter r s = { s with now := stopSample r s } := by
    rw [beforeCharacter_quiet fun n _ => by rw [hp]; exact ⟨nofun, nofun⟩]
    exact State.reach_of_le (Nat.le_max_left _ _)
  rw [receiveAll_cons h, characterOp_goodCharacter ha, hbefore,
    goodCharacterOp_hunting (s := { s with now := stopSample r s }) hp]
  rfl

/-- The kind and the length of a frame, after the sync character (R5, R7). -/
theorem receiveAll_kindLength {r : Receiver} {s : State} {n : Nat} {rest : List Byte} (h : s.inReset = false) (kind : Byte)
    (length : BitVec 16) :
    ∃ t, FrameEndsAlike r t { s with now := n + 80 * 3 } ∧
      receiveAll r (kind :: bytes16 length ++ rest) (receivingAt r s n [] none none) =
        receiveAll r rest (if maxPayload kind < length.toNat then errorAtSample r .length t
          else receivingAt r s (n + 80 * 3) (kind :: bytes16 length) (some length.toNat) none) := by
  obtain ⟨hi, lo, hbytes, rfl⟩ := pair_bytes16 length
  refine ⟨_, receivingAt_endsAlike r s (n + 80 + 80) _ [kind, hi] none none, ?_⟩
  rw [hbytes]
  simp only [List.cons_append, List.nil_append]
  rw [receiveAll_header (buffer := []) h Nat.two_pos, List.nil_append,
    receiveAll_header (buffer := [kind]) h Nat.one_lt_two]
  exact receiveAll_length h kind hi

/-- The characters of a frame with any CRC, taken by a receiver that hunts (R6, R7, R10). -/
theorem receiveAll_frame {r : Receiver} {s : State} {f : Frame} (x : Crc16) (h : s.inReset = false)
    (hp : (s.rx.get r).phase = .hunting) (ha : (s.rx.get r).awaitHigh = false) (hl : f.lengthOk = true) :
    ∃ t, FrameEndsAlike r t { s with now := stopSample r s + 80 * (f.payload.length + 5) } ∧
      receiveAll r ([0xC3, f.kind] ++ bytes16 (BitVec.ofNat 16 f.payload.length) ++ f.payload ++ bytes16 x) s =
        .next (if x = frameCrc f then completeFrame r f t else errorAtSample r .crc t) := by
  have hmax : ¬ maxPayload f.kind < f.payload.length := Nat.not_lt.mpr (of_decide_eq_true hl)
  have hlen : (BitVec.ofNat 16 f.payload.length).toNat = f.payload.length := by
    have : maxPayload f.kind ≤ 774 := by unfold maxPayload; split <;> decide
    rw [BitVec.toNat_ofNat]; omega
  set n := stopSample r s with hn
  obtain ⟨_, _, hhead⟩ := receiveAll_kindLength (r := r) (s := s) (n := n) (rest := f.payload ++ bytes16 x) h f.kind
    (BitVec.ofNat 16 f.payload.length)
  rw [hlen, if_neg hmax, receiveAll_payload h] at hhead
  obtain ⟨hi, hcrc⟩ := receiveAll_crc (r := r) (s := s) (n := n + 80 * 3 + 80 * f.payload.length)
    (buffer := f.kind :: bytes16 (BitVec.ofNat 16 f.payload.length) ++ f.payload) h x
  have hnow : n + 80 * 3 + 80 * f.payload.length + 80 * 2 = n + 80 * (f.payload.length + 5) := by omega
  rw [hnow] at hcrc
  refine ⟨_, receivingAt_endsAlike r s (n + 80 * 3 + 80 * f.payload.length + 80) _
    (f.kind :: bytes16 (BitVec.ofNat 16 f.payload.length) ++ f.payload) (some 0) (some hi), ?_⟩
  rw [List.append_assoc, List.append_assoc]
  exact (receiveAll_sync h hp ha).trans (hhead.trans hcrc)

/-- An error that a frame ends in is the command for it (R10, R11). -/
theorem errorAtSample_alike {r : Receiver} {e : DetectedError} {t u : State} (ht : FrameEndsAlike r t u)
    (hu : u.inReset = false) (he : e ≠ .character) (hd : ¬ (r = .dReturnRx ∧ e = .format)) :
    .next (errorAtSample r e t) = exec (.receiveError r e) u := by
  rw [ht.fails e he, exec_receiveError hu hd]

/-- A frame that completes is the command that it decodes to, or the receive error (R10, R13). -/
theorem completeFrame_alike {r : Receiver} {t u : State} (ht : FrameEndsAlike r t u) (hu : u.inReset = false)
    (f : Frame) :
    .next (completeFrame r f t) = match decodeFrame u.node r f with
      | .ok c => exec c u
      | .error e => exec (.receiveError r e) u := by
  unfold completeFrame
  rw [ht.node]
  cases hd : decodeFrame u.node r f with
  | error e => exact errorAtSample_alike ht hu (decodeFrame_ne_character hd) (decodeFrame_dReturn_ne_format hd)
  | ok c =>
    obtain ⟨henc, hw, -⟩ := ((decodingAgreesWithEncoding.2 u.node r f).1 c).mp hd
    obtain ⟨after, hafter⟩ := runFrameCommand_settle henc hw
    simp only [exec_decoded hu hd, hafter, ht.settles]

/-- Settles O10: the state within a frame is followed character by character, and only the last error kind of a receiver
outlives its frame. -/
theorem charactersMakeTheFrame : Obligations.CharactersMakeTheFrame := by
  refine ⟨crc16_asGiven, characters_asGiven, fun r s first h hp ha hfirst => ⟨fun f hl => ⟨?_, fun x hx => ?_⟩,
    fun kind length hlong => ?_⟩⟩
  · obtain ⟨t, ht, hall⟩ := receiveAll_frame (f := f) (frameCrc f) h hp ha hl
    rw [if_pos rfl] at hall
    have hcmd := hall.trans (completeFrame_alike ht h f)
    subst hfirst
    cases hd : decodeFrame s.node r f <;>
      · rw [hd] at hcmd
        exact hcmd
  · obtain ⟨t, ht, hall⟩ := receiveAll_frame (f := f) x h hp ha hl
    subst hfirst
    rw [if_neg (by exact hx)] at hall
    exact hall.trans (errorAtSample_alike ht h nofun nofun)
  · obtain ⟨t, ht, hall⟩ := receiveAll_kindLength (r := r) (s := s) (n := stopSample r s) (rest := []) h kind length
    subst hfirst
    rw [if_pos hlong, List.append_nil] at hall
    exact ((receiveAll_sync h hp ha).trans hall).trans (errorAtSample_alike ht h nofun nofun)

end Sys2Proof.Machine
end

section
/-! Executed requests and the warm restart (O49). -/

namespace Sys2Proof.Machine

/-! ## Executed requests -/

/-- A reply that joins the queue changes the return lines and the replay record of its port only (R130, R131). -/
theorem answer_frame (h : RequestHeader) (code : Byte) (r : Reply) (s : State) :
    answer h code r s = { s with
      tx := { s.tx with a := (answer h code r s).tx.a, b := (answer h code r s).tx.b }
      relay := (answer h code r s).relay
      queue := (answer h code r s).queue
      replay := s.replay.set h.port (some ⟨h.tag, code, r⟩)
      preference := (answer h code r s).preference } := by
  unfold answer
  rw [joinQueue_frame]
  rfl

/-- The kinds of an executed request are flagged before its reply and its notices, which leave them (R183, R187). -/
theorem finishRequest_latched (h : RequestHeader) (code : Byte) (c : Carried) :
    (finishRequest h code c).latched = (latchFlags c.latches c.state).1.latched ∧
      (finishRequest h code c).alert = (latchFlags c.latches c.state).1.alert := by
  unfold finishRequest
  dsimp only
  obtain ⟨hl, ha⟩ := offerNotices_latched (latchFlags c.latches c.state).2
    (answer h code (formReply h code c (latchFlags c.latches c.state).1) (latchFlags c.latches c.state).1)
  rw [hl, ha, answer_frame]
  exact ⟨rfl, rfl⟩

/-- The reply shows the kinds that its request latches (R125, R183). -/
theorem finishRequest_reply (h : RequestHeader) (code : Byte) (c : Carried) :
    formReply h code c (latchFlags c.latches c.state).1 =
      ⟨c.state.node, h.tag, code, c.result, (finishRequest h code c).summaryByte, c.data⟩ := by
  have hn := latchFlags_noticed c.latches c.state
  have hs : (finishRequest h code c).summaryByte = (latchFlags c.latches c.state).1.summaryByte :=
    summaryByte_congr (finishRequest_latched h code c).1
      ((finishRequest_linked h code c).steady.activeBank.trans hn.activeBank.symm)
  rw [hs, formReply, hn.node]

/-- All that an executed request changes beyond what carrying it out does (R134, R183). -/
theorem finishRequest_frame (h : RequestHeader) (code : Byte) (c : Carried) :
    finishRequest h code c = { c.state with
      tx := { c.state.tx with a := (finishRequest h code c).tx.a, b := (finishRequest h code c).tx.b }
      relay := (finishRequest h code c).relay
      queue := (finishRequest h code c).queue
      replay := (finishRequest h code c).replay
      preference := (finishRequest h code c).preference
      latched := (finishRequest h code c).latched
      pendingNotices := (finishRequest h code c).pendingNotices
      alert := (finishRequest h code c).alert } := by
  have h1 := latchFlags_noticed c.latches c.state
  set s1 := (latchFlags c.latches c.state).1 with hs1
  have h2 := answer_frame h code (formReply h code c s1) s1
  set s2 := answer h code (formReply h code c s1) s1 with hs2
  have h3 := offerNotices_noticed (latchFlags c.latches c.state).2 s2
  have ht : finishRequest h code c = offerNotices (latchFlags c.latches c.state).2 s2 := rfl
  rw [ht]
  unfold Noticed at h1 h3
  clear_value s1 s2
  rw [h3, h2, h1]

/-- What an executed request leaves of the part as carrying it out left it (R134). -/
theorem finishRequest_part (h : RequestHeader) (code : Byte) (c : Carried) :
    (finishRequest h code c).rx = c.state.rx ∧ (finishRequest h code c).ports = c.state.ports ∧
      (finishRequest h code c).parks = c.state.parks ∧ (finishRequest h code c).targets = c.state.targets ∧
      (finishRequest h code c).scenes = c.state.scenes ∧ (finishRequest h code c).missed = c.state.missed ∧
      (finishRequest h code c).forward = c.state.forward ∧ (finishRequest h code c).session = c.state.session ∧
      (finishRequest h code c).pointer = c.state.pointer ∧ (finishRequest h code c).activeBank = c.state.activeBank := by
  rw [finishRequest_frame]
  exact ⟨rfl, rfl, rfl, rfl, rfl, rfl, rfl, rfl, rfl, rfl⟩

theorem finishRequest_only (h : RequestHeader) (code : Byte) (c : Carried) :
    OnlyAnswerAndConditions c.state (finishRequest h code c) := by
  have hframe := finishRequest_frame h code c
  have hserves := (finishRequest_serves h code c).1
  generalize finishRequest h code c = t at *
  exact ⟨by rw [hframe], hserves⟩

theorem latchFlags_alertFollows {ks : List Condition} {s : State} (h : s.AlertFollows) :
    (latchFlags ks s).1.AlertFollows := by
  induction ks generalizing s with
  | nil => exact h
  | cons k ks ih =>
    refine ih ?_
    by_cases hk : hasKind s.latched k = true
    · exact h.of (by rw [latchFlag_eq]; exact addKind_of_hasKind hk) (by rw [latchFlag_eq]; exact if_pos hk)
        (latchFlag_noticed k s).activeBank
    · unfold State.AlertFollows
      rw [(latchFlag_noticed k s).config, latchFlag_eq]
      simp only [if_neg hk]
      exact and_ne_zero_iff _ _

/-- An executed request keeps ALERT as the latched set and the mask have it (R187). -/
theorem finishRequest_alertFollows (h : RequestHeader) (code : Byte) {c : Carried} (hc : c.state.AlertFollows) :
    (finishRequest h code c).AlertFollows := by
  obtain ⟨hl, ha⟩ := finishRequest_latched h code c
  exact (latchFlags_alertFollows hc).of hl ha
    ((finishRequest_linked h code c).steady.activeBank.trans (latchFlags_noticed _ _).activeBank.symm)

/-! ## An empty relay FIFO -/

theorem serveReturn_relay_nil {p : Port} {s : State} (h : s.relay = []) : (serveReturn p s).relay = [] := by
  cases p
  · change (serveA s).relay = []
    obtain ⟨_, _, -, -, e⟩ | ⟨_, _, -, hr, -⟩ | ⟨-, e⟩ := serveA_cases s
    · rw [e]; exact h
    · exact absurd (h.symm.trans hr) nofun
    · rw [e]; exact h
  · change (serveB s).relay = []
    obtain ⟨_, _, -, -, e⟩ | ⟨-, e⟩ := serveB_cases s
    · rw [e]; exact h
    · rw [e]; exact h

theorem joinQueue_relay_nil {m : Message} {p : Port} {s : State} (h : s.relay = []) : (joinQueue m p s).relay = [] :=
  serveReturn_relay_nil h

theorem offerNotices_relay_nil {ks : List Condition} {s : State} (h : s.relay = []) : (offerNotices ks s).relay = [] := by
  induction ks generalizing s with
  | nil => exact h
  | cons k ks ih =>
    refine ih ?_
    unfold offerNotice
    split
    · exact h
    · split
      · exact joinQueue_relay_nil h
      · exact h

theorem latchFlags_relay (ks : List Condition) (s : State) : (latchFlags ks s).1.relay = s.relay := by
  induction ks generalizing s with
  | nil => rfl
  | cons k ks ih => exact (ih _).trans (by rw [latchFlag_eq])

/-- An answer puts nothing in the relay FIFO (R118, R140). -/
theorem finishRequest_relay_nil {h : RequestHeader} {code : Byte} {c : Carried} (hr : c.state.relay = []) :
    (finishRequest h code c).relay = [] :=
  offerNotices_relay_nil (joinQueue_relay_nil ((latchFlags_relay c.latches c.state).trans hr))

/-! ## Notices within the room of the queue -/

theorem offer_room {s : State} {v : Conditions} {k : Condition} (hv : v.entries.length < 8) :
    (v.offer s k).pendingNotices = v.pendingNotices ∧ (v.offer s k).entries.length ≤ v.entries.length + 1 := by
  unfold Conditions.offer
  split
  · exact ⟨rfl, Nat.le_succ _⟩
  · exact ⟨rfl, (List.length_append).le⟩

/-- Notices that find room in the queue leave none pending (R189). -/
theorem offers_room {s : State} {ks : List Condition} {v : Conditions} (hv : v.entries.length + ks.length ≤ 8) :
    (ks.foldl (fun v k => v.offer s k) v).pendingNotices = v.pendingNotices := by
  induction ks generalizing v with
  | nil => rfl
  | cons k ks ih =>
    rw [List.length_cons] at hv
    obtain ⟨hp, hl⟩ := offer_room (s := s) (k := k) (v := v) (by omega)
    rw [List.foldl_cons, ih (by omega), hp]

theorem flags_rest (s : State) (ks : List Condition) (v : Conditions) :
    (ks.foldl (fun v k => v.flag s k) v).pendingNotices = v.pendingNotices ∧
      (ks.foldl (fun v k => v.flag s k) v).entries = v.entries := by
  induction ks generalizing v with
  | nil => exact ⟨rfl, rfl⟩
  | cons k ks ih =>
    have hf : (v.flag s k).pendingNotices = v.pendingNotices ∧ (v.flag s k).entries = v.entries := by
      unfold Conditions.flag; split <;> exact ⟨rfl, rfl⟩
    rw [List.foldl_cons, (ih _).1, (ih _).2]
    exact hf

/-- A request whose reply and notices find room leaves no further notice pending (R189). -/
theorem carried_room {s : State} {ks : List Condition} {reply : List (Message × Port)} {v : Conditions}
    (hv : v.entries.length + reply.length + ks.length ≤ 8) : (v.carried s ks reply).pendingNotices = v.pendingNotices := by
  obtain ⟨hp, he⟩ := flags_rest s ks v
  unfold Conditions.carried
  dsimp only
  rw [offers_room]
  · exact hp
  · have := List.length_filter_le (v.owes s) ks
    rw [List.length_append, he]
    omega

/-! ## The warm restart -/

/-- All that a warm restart changes (R17, R37, R91, R121, R145, R180, R195). -/
theorem warmRestart_eq (s : State) :
    warmRestart s = { s with
      ports := ⟨s.ports.a.silenced, s.ports.b.silenced⟩
      parks := Vector.replicate Config.channels .reset
      targets := (warmRestart s).targets
      missed := 0
      forward := []
      relay := []
      session := if s.session = .noSession then .noSession else .copying s.now
      pointer := ⟨.config, 0⟩
      latched := 0
      pendingNotices := 0
      alert := false
      queue := []
      replay := ⟨none, none⟩ } := by
  have hsession : (restartSession (restartPaths (restartResolver (restartPorts s)))).session =
      if s.session = .noSession then .noSession else .copying s.now := by
    unfold restartSession
    cases hs : s.session <;> simp [restartPaths, restartResolver, restartPorts, clearOwners, hs]
  have halert : ∀ u : State, (restartConditions u).alert = false := fun u => by
    simp [restartConditions, State.evalAlert]
  rw [← hsession, ← halert (restartSession (restartPaths (restartResolver (restartPorts s))))]
  rfl

/-- Every channel is resolved anew, without an owner (R63). -/
theorem warmRestart_target (s : State) (c : Fin Config.channels) :
    (warmRestart s).targets[c] = resolveTarget (warmRestart s) c { s.targets[c] with owner := .nobody } := by
  have hcleared : (restartManagement (restartConditions (restartSession (restartPaths (restartResolver
      (restartPorts s)))))).targets[c] = { s.targets[c] with owner := .nobody } :=
    Table.getElem_mapFin _ _ _ c.isLt
  unfold warmRestart
  rw [resolveQuiet_target, if_pos rfl, hcleared]
  exact (resolveTarget_congr rfl rfl rfl rfl c _).symm

/-- FALLBACK latches at a restart when a channel enters SCENE, and PAUSED after it while PAUSE is asserted (R57, R63, R195). -/
theorem restartLatches_eq (s : State) :
    (EntersScene s (warmRestart s) → restartLatches s = .fallback :: if s.pause then [.paused] else []) ∧
      (¬ EntersScene s (warmRestart s) → restartLatches s = if s.pause then [.paused] else []) := by
  unfold restartLatches resolutionLatches EntersScene
  rw [← enteredScene_iff]
  exact ⟨fun h => by rw [if_pos h]; rfl, fun h => by rw [if_neg h]; rfl⟩

theorem mem_restartLatches {s : State} {k : Condition} :
    k ∈ restartLatches s ↔ (k = .fallback ∧ EntersScene s (warmRestart s)) ∨ (k = .paused ∧ s.pause = true) := by
  obtain ⟨hyes, hno⟩ := restartLatches_eq s
  by_cases h : EntersScene s (warmRestart s)
  · rw [hyes h]; cases hp : s.pause <;> simp [h]
  · rw [hno h]; cases hp : s.pause <;> simp [h]

theorem restartLatches_nodup (s : State) : (restartLatches s).Nodup ∧ (restartLatches s).length ≤ 2 := by
  obtain ⟨hyes, hno⟩ := restartLatches_eq s
  by_cases h : EntersScene s (warmRestart s)
  · rw [hyes h]; cases s.pause <;> decide
  · rw [hno h]; cases s.pause <;> decide

theorem warmRestart_alertFollows (s : State) : (warmRestart s).AlertFollows :=
  (evalAlert_alertFollows { restartSession (restartPaths (restartResolver (restartPorts s))) with
    latched := 0, pendingNotices := 0 }).of rfl rfl rfl

/-- One state is another after a warm restart, whatever the receivers did before it (R145). -/
structure Restarted (s w : State) : Prop where
  frame : w = { s with
    rx := w.rx
    ports := ⟨s.ports.a.silenced, s.ports.b.silenced⟩
    parks := Vector.replicate Config.channels .reset
    targets := w.targets
    missed := 0
    forward := []
    relay := []
    session := if s.session = .noSession then .noSession else .copying s.now
    pointer := ⟨.config, 0⟩
    latched := 0
    pendingNotices := 0
    alert := false
    queue := []
    replay := ⟨none, none⟩ }
  target : ∀ c : Fin Config.channels, w.targets[c] = resolveTarget w c { s.targets[c] with owner := .nobody }
  alert : w.AlertFollows

theorem warmRestart_restarted (r : Receiver) (s : State) : Restarted s (warmRestart (settle r s)) :=
  ⟨warmRestart_eq (settle r s), warmRestart_target (settle r s), warmRestart_alertFollows (settle r s)⟩

section

variable {s w t : State} (hr : Restarted s w)

include hr

theorem Restarted.port (hp : t.ports = w.ports) (p : Port) :
    (t.ports.get p).state = .silent ∧ (t.ports.get p).acquired = 0 ∧ (t.ports.get p).lossAt = none ∧
      (t.ports.get p).holdAt = none ∧ (t.ports.get p).lastSequence = (s.ports.get p).lastSequence ∧
      Invalidated (s.ports.get p).slots (t.ports.get p).slots := by
  rw [hp, hr.frame]
  cases p <;> exact ⟨rfl, rfl, rfl, rfl, rfl, invalidate_invalidated _⟩

theorem Restarted.park (hp : t.parks = w.parks) (c : Fin Config.channels) : t.parks[c] = ⟨false, 0, none⟩ := by
  rw [hp, hr.frame]
  exact Vector.getElem_replicate c.isLt

/-- What a RESTART leaves of the part, and what its return lines do (R17, R37, R121, R140, R145, R180). -/
theorem Restarted.only (ho : OnlyAnswerAndConditions w t) :
    OnlyAnswerAndConditions { s with
      ports := t.ports
      parks := t.parks
      targets := t.targets
      missed := t.missed
      forward := t.forward
      relay := []
      queue := []
      session := t.session
      pointer := t.pointer } t := by
  obtain ⟨hframe, hserves⟩ := ho
  have hw := hr.frame
  refine ⟨?_, hserves.congr (by rw [hw]) (by rw [hw]) (by rw [hw]) (by rw [hw]) (by rw [hw]) ?_ rfl rfl rfl rfl rfl rfl⟩
  · rw [hframe, hw]
  · rw [hw]
    exact fun hn => ⟨fun hd => ⟨(hn.1 hd).1, rfl⟩, hn.2⟩

theorem Restarted.conditions : w.conditions = ⟨0, 0, false, []⟩ := by
  rw [hr.frame]; rfl

end

/-! ## An addressed RESTART -/

/-- An addressed RESTART is carried out and answered (R130, R145). -/
theorem exec_restart {h : RequestHeader} {extra : List Byte} {s : State} (hres : h.reserved = 0)
    (he : Executes h 0x31 extra s) :
    exec (.restart h extra) s = .next (finishRequest h 0x31 (carryRestart (settle (rxOf h.port) s))) := by
  refine (whenRunning_next he.1).trans ?_
  unfold onRestart
  rw [onRequest_executed (code := Command.restart.code) he, guardReserved, if_pos hres]
  rfl

/-- The reply to a RESTART and the notices behind it, in the emptied queue (R130, R131, R145, R183). -/
theorem restarted_answered {s w : State} (hr : Restarted s w) (h : RequestHeader) (ks : List Condition) :
    let t := finishRequest h 0x31 ⟨w, .ok, [], ks⟩
    (∃ more, entries t.queue = (.reply ⟨s.node, h.tag, 0x31, .ok, t.summaryByte, []⟩, h.port) :: more ∧
      more.length ≤ ks.length ∧ ∀ e ∈ more, ∃ k ∈ ks, ∃ y, e = (.notice s.node k y, .a)) ∧
    ∀ p, t.replay.get p =
      if p = h.port then some ⟨h.tag, 0x31, ⟨s.node, h.tag, 0x31, .ok, t.summaryByte, []⟩⟩ else none := by
  intro t
  obtain ⟨more, hentries, hmore, hnotices, hreplay⟩ := finishRequest_answered h 0x31 ⟨w, .ok, [], ks⟩
  have hnode : w.node = s.node := by rw [hr.frame]
  have hqueue : w.queue = [] := by rw [hr.frame]
  have hnone : w.replay = ⟨none, none⟩ := by rw [hr.frame]
  rw [finishRequest_reply] at hentries hreplay
  simp only [hnode, hqueue, hnone] at hentries hnotices hreplay
  refine ⟨⟨more, hentries, hmore, hnotices⟩, fun p => ?_⟩
  rw [show t.replay = _ from hreplay]
  cases h.port <;> cases p <;> rfl

/-- The conditions that a RESTART leaves (R134, R183, R187, R195). -/
theorem restarted_conditions {s w : State} (hr : Restarted s w) (h : RequestHeader) {ks : List Condition}
    (hn : ks.Nodup) (hl : ks.length ≤ 2) :
    let t := finishRequest h 0x31 ⟨w, .ok, [], ks⟩
    t.conditions = Conditions.carried s ks [(.reply ⟨s.node, h.tag, 0x31, .ok, t.summaryByte, []⟩, h.port)]
        ⟨0, 0, false, []⟩ ∧
      t.pendingNotices = 0 ∧ t.AlertFollows ∧ ∀ k, hasKind t.latched k = true ↔ k ∈ ks := by
  intro t
  have hnode : w.node = s.node := by rw [hr.frame]
  have hbank : w.activeBank = s.activeBank := by rw [hr.frame]; rfl
  have hcond := finishRequest_conditions (s := s) (c := ⟨w, .ok, [], ks⟩) h 0x31 hn hnode hbank
  rw [finishRequest_reply] at hcond
  simp only [hnode, hr.conditions] at hcond
  refine ⟨hcond, ?_, finishRequest_alertFollows h 0x31 hr.alert, fun k => ?_⟩
  · have := congrArg Conditions.pendingNotices hcond
    rw [carried_room (by simp only [List.length_nil, List.length_singleton]; omega)] at this
    exact this
  · have hw : w.latched = 0 := by rw [hr.frame]
    rw [show t.latched = _ from (finishRequest_latched h 0x31 ⟨w, .ok, [], ks⟩).1, latchFlags_hasKind, hw]
    simp

/-- Settles O49: the restart is carried out before the reply joins the emptied queue, and its notices find room behind it. -/
theorem restartIsWarm : Obligations.RestartIsWarm := by
  intro h extra s hres he
  have hexec := exec_restart hres he
  have hr := warmRestart_restarted (rxOf h.port) s
  have hrx : (warmRestart (settle (rxOf h.port) s)).rx = (settle (rxOf h.port) s).rx := by rw [warmRestart_eq]
  obtain ⟨hnodup, hshort⟩ := restartLatches_nodup (settle (rxOf h.port) s)
  obtain ⟨henters, hstays⟩ := restartLatches_eq (settle (rxOf h.port) s)
  have hmem : ∀ k, k ∈ restartLatches (settle (rxOf h.port) s) ↔ _ := fun k => mem_restartLatches
  unfold carryRestart at hexec
  generalize warmRestart (settle (rxOf h.port) s) = w at *
  generalize restartLatches (settle (rxOf h.port) s) = ks at *
  obtain ⟨⟨more, hentries, hmore, hnotices⟩, hreplay⟩ := restarted_answered hr h ks
  obtain ⟨hconditions, hpending, hfollows, hlatched⟩ := restarted_conditions hr h hnodup hshort
  have honly := hr.only (finishRequest_only h 0x31 ⟨w, .ok, [], ks⟩)
  have hrelay := finishRequest_relay_nil (h := h) (code := 0x31) (c := ⟨w, .ok, [], ks⟩) (by rw [hr.frame])
  obtain ⟨hrxt, hports, hparks, htargets, hscenes, hmissed, hforward, hsession, hpointer, hbank⟩ :=
    finishRequest_part h 0x31 ⟨w, .ok, [], ks⟩
  generalize finishRequest h 0x31 ⟨w, .ok, [], ks⟩ = t at *
  have hscene : EntersScene (settle (rxOf h.port) s) w ↔ EntersScene s t := by unfold EntersScene; rw [htargets]; rfl
  refine ⟨t, more, hexec, (settle_settled _ s).of_rx (hrxt.trans hrx), hentries, hmore.trans hshort, fun e hm => ?_, hreplay,
    hr.port hports, fun c => ⟨hr.park hparks c, ?_⟩, hmissed.trans ?_, hforward.trans ?_, hrelay, hpointer.trans ?_,
    hsession.trans ?_, hpending, hfollows, fun k => ?_, ⟨fun hs => ?_, fun hs => ?_⟩, honly⟩
  · obtain ⟨k, hk, y, rfl⟩ := hnotices e hm
    exact ⟨k, y, ((hmem k).mp hk).imp And.left And.left, rfl⟩
  · rw [htargets, hr.target c]
    exact (resolveTarget_congr hparks hports hbank hscenes c _).symm
  · rw [hr.frame]
  · rw [hr.frame]
  · rw [hr.frame]
  · rw [hr.frame]
  · rw [hlatched, hmem, hscene]; rfl
  · rw [hconditions, henters (hscene.mpr hs)]; rfl
  · rw [hconditions, hstays (mt hscene.mp hs)]; rfl

end Sys2Proof.Machine
end

section
/-! Broadcasts (O35). -/

namespace Sys2Proof.Machine

/-! ## The receivers and the choices do not matter to latchings -/

/-- A state with other receivers and another count of choices. -/
def State.beside (s : State) (x : PerRx Rx) (n : Nat) : State := { s with rx := x, choices := n }

section

variable (s : State) (x : PerRx Rx) (n : Nat)

theorem serveA_beside : serveA (s.beside x n) = (serveA s).beside x n := by
  unfold serveA State.beside
  dsimp only
  repeat' split
  all_goals rfl

theorem offerNotice_beside (k : Condition) : offerNotice k (s.beside x n) = (offerNotice k s).beside x n := by
  unfold offerNotice
  have hjoin : queueNotice k (s.beside x n) = (queueNotice k s).beside x n :=
    serveA_beside { s with queue := s.queue ++ [⟨.notice s.node k s.summaryByte, .a, .waiting⟩] } x n
  rw [hjoin]
  unfold State.beside
  dsimp only
  repeat' split
  all_goals rfl

theorem latch_beside (k : Condition) : latch k (s.beside x n) = (latch k s).beside x n := by
  have hflag : latchFlag k (s.beside x n) = ((latchFlag k s).1.beside x n, (latchFlag k s).2) := by
    unfold latchFlag State.beside
    dsimp only
    split <;> rfl
  rw [latch_eq, latch_eq, hflag]
  dsimp only
  split
  · exact offerNotice_beside _ x n k
  · rfl

theorem latchAll_beside (ks : List Condition) : latchAll ks (s.beside x n) = (latchAll ks s).beside x n := by
  induction ks generalizing s with
  | nil => rfl
  | cons k ks ih => rw [latchAll, latchAll, latch_beside, ih]

end

/-! ## Latchings with and without a reply -/

theorem latchFlags_congr {ks : List Condition} {s t : State} (hl : t.latched = s.latched) (ha : t.alert = s.alert)
    (hb : t.activeBank = s.activeBank) :
    (latchFlags ks t).1.latched = (latchFlags ks s).1.latched ∧ (latchFlags ks t).1.alert = (latchFlags ks s).1.alert := by
  induction ks generalizing s t with
  | nil => exact ⟨hl, ha⟩
  | cons k ks ih =>
    have hc : t.config = s.config := congrArg Bank.config hb
    refine ih (s := (latchFlag k s).1) (t := (latchFlag k t).1) ?_ ?_ ?_
    · rw [latchFlag_eq, latchFlag_eq, hl]
    · rw [latchFlag_eq, latchFlag_eq]; simp only [hl, ha, hc]
    · rw [latchFlag_eq, latchFlag_eq]; exact hb

/-- Kinds that latch one after another, each with its notice, are those that latch before a reply (R183, R187). -/
theorem latchAll_flags (ks : List Condition) (s : State) :
    (latchAll ks s).latched = (latchFlags ks s).1.latched ∧ (latchAll ks s).alert = (latchFlags ks s).1.alert := by
  induction ks generalizing s with
  | nil => exact ⟨rfl, rfl⟩
  | cons k ks ih =>
    have hone : (latch k s).latched = (latchFlag k s).1.latched ∧ (latch k s).alert = (latchFlag k s).1.alert := by
      rw [latch_eq]
      split
      · exact offerNotice_latched k _
      · exact ⟨rfl, rfl⟩
    obtain ⟨hl, ha⟩ := latchFlags_congr (ks := ks) hone.1 hone.2
      ((latch_noticed k s).activeBank.trans (latchFlag_noticed k s).activeBank.symm)
    exact ⟨(ih _).1.trans hl, (ih _).2.trans ha⟩

/-! ## What the five commands do when carried out -/

/-- Carrying out touches channels and scenes only, latches what a resolution does, and reads nothing of the links, the
conditions and what waits (R59, R92, R95, R97). -/
structure OnChannels (carry : State → Carried) : Prop where
  state : ∀ s t, Linked { s with choices := t.choices } t →
    (carry t).state = { t with
      parks := (carry s).state.parks, targets := (carry s).state.targets, scenes := (carry s).state.scenes } ∧
    (carry t).latches = (carry s).latches
  latches : ∀ s, (carry s).latches = resolutionLatches s (carry s).state

theorem resolutionLatches_self (s : State) : resolutionLatches s s = [] := by
  refine if_neg fun h => ?_
  obtain ⟨c, hne, he⟩ := (enteredScene_iff _ _).mp h
  exact hne he

theorem refuseWith_onChannels (r : Result) : OnChannels (refuseWith r) := by
  refine ⟨fun s t h => ⟨?_, rfl⟩, fun s => (resolutionLatches_self s).symm⟩
  unfold Linked at h
  show t = _
  rw [h]; rfl

theorem parkRange_onChannels (first count : BitVec 16) (p : ParkRecord) : OnChannels (parkRange first count p) := by
  refine ⟨fun s t h => ⟨?_, ?_⟩, fun s => rfl⟩
  · unfold Linked at h; rw [h]; rfl
  · unfold Linked at h; rw [h]; rfl

theorem carryForce_onChannels (first count : BitVec 16) (level : Level) (profile : Byte) :
    OnChannels (carryForce first count level profile) := by
  have refused : ∀ s, (rangeOk first count = false ∨ forceProfile profile = none) →
      carryForce first count level profile s = refuseWith .badArgument s := by
    rintro s (h | h) <;> simp [carryForce, h]
  by_cases hr : rangeOk first count = true
  · cases hp : forceProfile profile with
    | none => rw [funext fun s => refused s (.inr hp)]; exact refuseWith_onChannels _
    | some p =>
      have : carryForce first count level profile = parkRange first count ⟨true, level, p⟩ := by
        funext s; simp [carryForce, hr, hp]
      rw [this]; exact parkRange_onChannels _ _ _
  · rw [funext fun s => refused s (.inl (Bool.eq_false_iff.mpr hr))]; exact refuseWith_onChannels _

theorem carryRelease_onChannels (first count : BitVec 16) : OnChannels (carryRelease first count) := by
  by_cases hr : rangeOk first count = true
  · rw [show carryRelease first count = parkRange first count .reset from funext fun s => if_pos hr]
    exact parkRange_onChannels _ _ _
  · rw [show carryRelease first count = refuseWith .badArgument from funext fun s => if_neg hr]
    exact refuseWith_onChannels _

theorem carrySaveScene_onChannels (scene : Byte) : OnChannels (carrySaveScene scene) := by
  by_cases hs : scene.toNat < 4
  · have hc : ∀ s, carrySaveScene scene s = _ := fun s => dif_pos hs
    refine ⟨fun s t h => ⟨?_, ?_⟩, fun s => ?_⟩
    · rw [hc, hc]; unfold Linked at h; rw [h]; rfl
    · rw [hc, hc]; unfold Linked at h; rw [h]; rfl
    · rw [hc]; rfl
  · rw [show carrySaveScene scene = refuseWith .badArgument from funext fun s => dif_neg hs]
    exact refuseWith_onChannels _

/-- What a broadcast does when it is carried out: on channels, on the conditions, or on the whole part (R129). -/
inductive CarriedAs (h : RequestHeader) (c : Instr) : (State → Carried) → Prop where
  | channels (carry : State → Carried) (ho : OnChannels carry)
      (hc : h.reserved ≠ 0 ∨ ((∀ kinds x, c ≠ .ackConditions h kinds x) ∧ ∀ x, c ≠ .restart h x)) : CarriedAs h c carry
  | acks (kinds : KindSet) (x : List Byte) (hr : h.reserved = 0) (hc : c = .ackConditions h kinds x) :
      CarriedAs h c (carryAck kinds)
  | restarts (x : List Byte) (hr : h.reserved = 0) (hc : c = .restart h x) : CarriedAs h c carryRestart

theorem guardReserved_carriedAs {h : RequestHeader} {c : Instr} {carry : State → Carried}
    (hc : h.reserved = 0 → CarriedAs h c carry) : CarriedAs h c (guardReserved h carry) := by
  by_cases hr : h.reserved = 0
  · rw [show guardReserved h carry = carry from funext fun s => if_pos hr]
    exact hc hr
  · rw [show guardReserved h carry = refuseWith .badArgument from funext fun s => if_neg hr]
    exact .channels _ (refuseWith_onChannels _) (.inl hr)

theorem guardReserved_congr {h g : RequestHeader} (hr : g.reserved = h.reserved) (carry : State → Carried) :
    guardReserved g carry = guardReserved h carry := by
  unfold guardReserved; rw [hr]

/-- The same command of the five with two headers that differ in their destination or their port: what both carry out, and
how it acts as a broadcast (R129, R146). -/
theorem sameForHeaders_carried {h g : RequestHeader} {c d : Instr} (hs : SameForHeaders h g c d)
    (hr : g.reserved = h.reserved) (hw : c.wellFormed = true) :
    ∃ form code args carry, requestParts c = some (h, code, args) ∧ args.length + 4 ≤ 256 ∧
      (form = BroadcastForm.acts ∧ code ≠ 0x31 ∧ (∀ x, c ≠ .restart h x) ∨
        form = BroadcastForm.restarts ∧ code = 0x31 ∧ ∃ x, c = .restart h x) ∧ CarriedAs h c carry ∧
      (∀ s, s.inReset = false → exec c s = .next (onRequest form h code args carry s)) ∧
      (∀ s, s.inReset = false → exec d s = .next (onRequest form g code args carry s)) := by
  obtain ⟨first, count, level, profile, extra, rfl, rfl⟩ | ⟨first, count, extra, rfl, rfl⟩ | ⟨scene, extra, rfl, rfl⟩ |
    ⟨kinds, extra, rfl, rfl⟩ | ⟨extra, rfl, rfl⟩ := hs
  · exact ⟨.acts, _, _, _, rfl, of_decide_eq_true hw, .inl ⟨rfl, by decide, nofun⟩,
      guardReserved_carriedAs fun _ => .channels _ (carryForce_onChannels first count level profile) (.inr ⟨nofun, nofun⟩),
      fun s hs => whenRunning_next hs, fun s hs => by rw [← guardReserved_congr hr]; exact whenRunning_next hs⟩
  · exact ⟨.acts, _, _, _, rfl, of_decide_eq_true hw, .inl ⟨rfl, by decide, nofun⟩,
      guardReserved_carriedAs fun _ => .channels _ (carryRelease_onChannels first count) (.inr ⟨nofun, nofun⟩),
      fun s hs => whenRunning_next hs, fun s hs => by rw [← guardReserved_congr hr]; exact whenRunning_next hs⟩
  · exact ⟨.acts, _, _, _, rfl, of_decide_eq_true hw, .inl ⟨rfl, by decide, nofun⟩,
      guardReserved_carriedAs fun _ => .channels _ (carrySaveScene_onChannels scene) (.inr ⟨nofun, nofun⟩),
      fun s hs => whenRunning_next hs, fun s hs => by rw [← guardReserved_congr hr]; exact whenRunning_next hs⟩
  · exact ⟨.acts, _, _, _, rfl, of_decide_eq_true hw, .inl ⟨rfl, by decide, nofun⟩,
      guardReserved_carriedAs fun hz => .acks kinds extra hz rfl,
      fun s hs => whenRunning_next hs, fun s hs => by rw [← guardReserved_congr hr]; exact whenRunning_next hs⟩
  · exact ⟨.restarts, _, _, _, rfl, of_decide_eq_true hw, .inr ⟨rfl, rfl, extra, rfl⟩,
      guardReserved_carriedAs fun hz => .restarts extra hz rfl,
      fun s hs => whenRunning_next hs, fun s hs => by rw [← guardReserved_congr hr]; exact whenRunning_next hs⟩

/-- Carrying out on channels leaves all but parks, targets and scenes (R59, R97). -/
theorem OnChannels.frame {carry : State → Carried} (ho : OnChannels carry) (s : State) :
    (carry s).state = { s with
      parks := (carry s).state.parks, targets := (carry s).state.targets, scenes := (carry s).state.scenes } :=
  (ho.state s s rfl).1

/-- What carrying out does is the same whatever the receivers did and whatever was chosen before. -/
theorem CarriedAs.beside {h : RequestHeader} {c : Instr} {carry : State → Carried} (hc : CarriedAs h c carry) (s : State)
    (x : PerRx Rx) (n : Nat) :
    (carry (s.beside x n)).state = (carry s).state.beside x n ∧ (carry (s.beside x n)).latches = (carry s).latches := by
  cases hc with
  | channels _ ho _ =>
    obtain ⟨hstate, hlatches⟩ := ho.state s (s.beside x n) rfl
    refine ⟨hstate.trans ?_, hlatches⟩
    conv_rhs => rw [ho.frame s]
    rfl
  | acks => exact ⟨rfl, rfl⟩
  | restarts => exact ⟨rfl, rfl⟩

/-- The two states agree on what a request does to the part, beside the links and the replay records. -/
def SamePart (s t : State) : Prop :=
  (t.rx, t.ports, t.parks, t.targets, t.scenes, t.missed, t.forward, t.session, t.pointer, t.latched, t.alert,
    t.activeBank) =
    (s.rx, s.ports, s.parks, s.targets, s.scenes, s.missed, s.forward, s.session, s.pointer, s.latched, s.alert,
      s.activeBank)

/-- What carrying out does is the same whatever the reply queue and the replay records hold (R129). -/
theorem CarriedAs.queue {h : RequestHeader} {c : Instr} {carry : State → Carried} (hc : CarriedAs h c carry) (s : State)
    (q : List QueueEntry) (r : PerPort (Option ReplayRecord)) :
    SamePart (carry s).state (carry { s with queue := q, replay := r }).state ∧
      (carry { s with queue := q, replay := r }).latches = (carry s).latches := by
  cases hc with
  | channels _ ho _ =>
    obtain ⟨hstate, hlatches⟩ := ho.state s { s with queue := q, replay := r } rfl
    refine ⟨?_, hlatches⟩
    unfold SamePart
    rw [hstate]
    conv_rhs => rw [ho.frame s]
    rfl
  | acks => exact ⟨rfl, rfl⟩
  | restarts => exact ⟨rfl, rfl⟩

/-! ## A broadcast at B -/

/-- A broadcast at B is carried out, without an answer (R129). -/
theorem onRequest_broadcastB {form : BroadcastForm} {h : RequestHeader} {code : Byte} {args : List Byte}
    {carry : State → Carried} {s : State} (hf : form ≠ .ignored) (hl : args.length + 4 ≤ 256) (hp : h.port = .b)
    (hd : h.destination = 0) (hn : s.node ≠ 0) :
    onRequest form h code args carry s = carryBroadcast carry (settle .bRx s) := by
  have hon : ∀ t, handOn h code args t = t := fun t => by unfold handOn; rw [hp]
  unfold onRequest takeRequest
  rw [if_neg (Nat.not_lt.mpr hl), hp, if_neg (by rw [hd]; exact hn.symm), if_pos hd]
  cases form with
  | ignored => exact absurd rfl hf
  | acts => exact (if_neg (by rw [hp]; exact fun x => absurd x.1 nofun)).trans (hon _)
  | restarts => exact hon _

theorem Noticed.onlyAnswer {s t : State} (h : Noticed s t) (hr : ReturnsServe s t) : OnlyAnswerAndConditions s t := by
  refine ⟨?_, hr⟩
  unfold Noticed at h
  rw [h]

/-- What a broadcast does to the part is what the same request does that is answered (R129). -/
theorem broadcast_as_addressed {h g : RequestHeader} {c : Instr} {code : Byte} {carry : State → Carried}
    (hc : CarriedAs h c carry) (s : State) (q : List QueueEntry) (r : PerPort (Option ReplayRecord)) :
    SamePart (finishRequest g code (carry { s with queue := q, replay := r })) (carryBroadcast carry s) := by
  obtain ⟨hsame, hlatches⟩ := hc.queue s q r
  obtain ⟨hnoticed, -, -, -⟩ := carryBroadcast_latches carry s
  obtain ⟨hrx, hports, hparks, htargets, hscenes, hmissed, hforward, hsession, hpointer, hbank⟩ :=
    finishRequest_part g code (carry { s with queue := q, replay := r })
  obtain ⟨hl, ha⟩ := finishRequest_latched g code (carry { s with queue := q, replay := r })
  obtain ⟨hl', ha'⟩ := latchAll_flags (carry s).latches (carry s).state
  simp only [SamePart, Prod.mk.injEq] at hsame ⊢
  obtain ⟨e1, e2, e3, e4, e5, e6, e7, e8, e9, el, ea, eb⟩ := hsame
  obtain ⟨fl, fa⟩ := latchFlags_congr (ks := (carry s).latches) el ea eb
  rw [hlatches, fl] at hl
  rw [hlatches, fa] at ha
  rw [hrx, hports, hparks, htargets, hscenes, hmissed, hforward, hsession, hpointer, hbank, hl, ha, e1, e2, e3, e4, e5, e6,
    e7, e8, e9, eb]
  exact ⟨hnoticed.rx, hnoticed.ports, hnoticed.parks, hnoticed.targets, hnoticed.scenes, hnoticed.missed,
    hnoticed.forward, hnoticed.session, hnoticed.pointer, hl', ha', hnoticed.activeBank⟩

/-- FALLBACK latches when a resolution takes a channel into SCENE, beside what the receivers did (R57). -/
theorem resolution_thenFallback {s w t : State} (hn : w.node = s.node) (hb : w.activeBank = s.activeBank)
    (hc : w.conditions = s.conditions) (ht : t.targets = w.targets) (hl : Latches (resolutionLatches s w) w t) :
    LatchesThenFallback [] s t := by
  have hiff : EntersScene s t ↔ enteredScene s.targets w.targets = true := by
    rw [enteredScene_iff]; unfold EntersScene; rw [ht]
  refine ⟨fun h => ?_, fun h => ?_⟩
  · rw [resolutionLatches, if_pos (hiff.mp h)] at hl
    exact hl.congr hn hb hc rfl
  · rw [resolutionLatches, if_neg (mt hiff.mpr h)] at hl
    exact hl.congr hn hb hc rfl

/-- A broadcast on channels (R92, R95, R97, R129). -/
theorem broadcastB_channels {carry : State → Carried} (ho : OnChannels carry) (s : State) :
    let t := carryBroadcast carry (settle .bRx s)
    t.replay = s.replay ∧ LatchesThenFallback [] s t ∧
      OnlyAnswerAndConditions { s with parks := t.parks, targets := t.targets, scenes := t.scenes } t := by
  intro t
  obtain ⟨hnoticed, hlatches, hserves, -⟩ := carryBroadcast_latches carry (settle .bRx s)
  have hframe := ho.frame (settle .bRx s)
  rw [ho.latches] at hlatches
  change Noticed _ t at hnoticed
  change Latches _ _ t at hlatches
  change ReturnsServe _ t at hserves
  clear_value t
  generalize (carry (settle .bRx s)).state = w at *
  refine ⟨hnoticed.replay.trans (by rw [hframe]; rfl), ?_, ?_, ?_⟩
  · exact resolution_thenFallback (by rw [hframe]; rfl) (by rw [hframe]; rfl) (by rw [hframe]; rfl) hnoticed.targets hlatches
  · unfold Noticed at hnoticed
    rw [hnoticed, hframe]; rfl
  · exact hserves.congr (by rw [hframe]; rfl) (by rw [hframe]; rfl) (by rw [hframe]; rfl) (by rw [hframe]; rfl)
      (by rw [hframe]; rfl) (by rw [hframe]; exact id) rfl rfl rfl rfl rfl rfl

/-- A broadcast of ACK_CONDITIONS (R129, R185). -/
theorem broadcastB_acks (kinds : KindSet) (s : State) :
    let t := carryBroadcast (carryAck kinds) (settle .bRx s)
    t.replay = s.replay ∧ entries t.queue = entries s.queue ∧ OnlyAnswerAndConditions s t ∧
      ∀ k, hasKind t.pendingNotices k = true ↔ hasKind s.pendingNotices k = true ∧ hasKind kinds k = false := by
  refine ⟨rfl, rfl, ⟨rfl, .of_same rfl rfl rfl rfl rfl⟩, fun k => ?_⟩
  exact (congrArg (· = true) (hasKind_removeKinds s.pendingNotices kinds k)).to_iff.trans (by simp)

/-- A broadcast of RESTART (R129, R145, R195). -/
theorem broadcastB_restarts (s : State) :
    let t := carryBroadcast carryRestart (settle .bRx s)
    t.replay = ⟨none, none⟩ ∧
      (EntersScene s t → Latches (.fallback :: if s.pause then [.paused] else [])
        { s with latched := 0, pendingNotices := 0, alert := false, queue := [] } t) ∧
      (¬ EntersScene s t → Latches (if s.pause then [.paused] else [])
        { s with latched := 0, pendingNotices := 0, alert := false, queue := [] } t) ∧
      OnlyAnswerAndConditions { s with
        ports := t.ports
        parks := t.parks
        targets := t.targets
        missed := t.missed
        forward := t.forward
        relay := []
        queue := []
        session := t.session
        pointer := t.pointer } t := by
  intro t
  have hr := warmRestart_restarted .bRx s
  obtain ⟨hnoticed, hlatches, hserves, -⟩ := carryBroadcast_latches carryRestart (settle .bRx s)
  obtain ⟨henters, hstays⟩ := restartLatches_eq (settle .bRx s)
  change Noticed (warmRestart (settle .bRx s)) t at hnoticed
  change Latches (restartLatches (settle .bRx s)) (warmRestart (settle .bRx s)) t at hlatches
  change ReturnsServe (warmRestart (settle .bRx s)) t at hserves
  clear_value t
  generalize warmRestart (settle .bRx s) = w at *
  generalize restartLatches (settle .bRx s) = ks at *
  have hscene : EntersScene (settle .bRx s) w ↔ EntersScene s t := by unfold EntersScene; rw [hnoticed.targets]; rfl
  have hcongr : Latches ks { s with latched := 0, pendingNotices := 0, alert := false, queue := [] } t := by
    refine hlatches.congr ?_ ?_ (hr.conditions.trans rfl) rfl
    · rw [hr.frame]
    · rw [hr.frame]; rfl
  refine ⟨hnoticed.replay.trans (by rw [hr.frame]), fun h => ?_, fun h => ?_, hr.only (hnoticed.onlyAnswer hserves)⟩
  · have := henters (hscene.mpr h)
    rw [this] at hcongr; exact hcongr
  · have := hstays (mt hscene.mp h)
    rw [this] at hcongr; exact hcongr

theorem carryBroadcast_beside {h : RequestHeader} {c : Instr} {carry : State → Carried} (hc : CarriedAs h c carry)
    (s : State) (x : PerRx Rx) (n : Nat) :
    carryBroadcast carry (s.beside x n) = (carryBroadcast carry s).beside x n := by
  obtain ⟨hs, hl⟩ := hc.beside s x n
  unfold carryBroadcast
  dsimp only
  rw [hs, hl, latchAll_beside]

/-- A broadcast carried out leaves the receivers and the choices. -/
theorem carryBroadcast_line {h : RequestHeader} {c : Instr} {carry : State → Carried} (hc : CarriedAs h c carry)
    (s : State) : (carryBroadcast carry s).rx = s.rx ∧ (carryBroadcast carry s).choices = s.choices := by
  have hb := carryBroadcast_beside hc s s.rx s.choices
  exact ⟨(congrArg State.rx hb :), (congrArg State.choices hb :)⟩

theorem settle_beside (r : Receiver) (s : State) : settle r s = s.beside (settle r s).rx s.choices := rfl

/-- A broadcast at B does what the addressed request does, without the answer (R129). -/
theorem broadcast_atB {h g : RequestHeader} {s : State} {c d : Instr} (hs : s.inReset = false) (hdest : h.destination = 0)
    (hnode : s.node ≠ 0) (hport : h.port = .b) (hg : g = { h with destination := s.node }) (hw : c.wellFormed = true)
    (hsame : SameForHeaders h g c d) :
    ∃ carry u, CarriedAs h c carry ∧ exec c s = .next (carryBroadcast carry (settle .bRx s)) ∧
      exec d { s with queue := [], replay := ⟨none, none⟩ } = .next u ∧
      SamePart u (carryBroadcast carry (settle .bRx s)) := by
  obtain ⟨form, code, args, carry, -, hl, hform, hcar, hc, hd⟩ := sameForHeaders_carried hsame (by rw [hg]) hw
  have hf : form ≠ .ignored := by rintro rfl; rcases hform with ⟨h, -⟩ | ⟨h, -⟩ <;> cases h
  refine ⟨carry, _, hcar, (hc s hs).trans ?_, (hd { s with queue := [], replay := ⟨none, none⟩ } hs).trans ?_,
    broadcast_as_addressed (g := g) (code := code) hcar (settle .bRx s) [] ⟨none, none⟩⟩
  · rw [onRequest_broadcastB hf hl hport hdest hnode]
  · have he : Executes g code args { s with queue := [], replay := ⟨none, none⟩ } := by
      refine ⟨hs, by rw [hg], fun r hr => ?_, by simp, hl⟩
      cases hp : g.port <;> (rw [hp] at hr; cases hr)
    rw [onRequest_executed he, hg, hport]
    rfl

/-! ## A broadcast at A -/

/-- What a broadcast of a command other than RESTART does: the kinds in `removed` are acknowledged (R129, R185). -/
structure ActsWith (carry : State → Carried) (removed : KindSet) : Prop where
  channels : ∀ s t, Linked { s with choices := t.choices } t →
    (carry t).state.parks = (carry s).state.parks ∧ (carry t).state.targets = (carry s).state.targets ∧
      (carry t).state.scenes = (carry s).state.scenes ∧ (carry t).latches = (carry s).latches
  links : ∀ s, (carry s).state.forward = s.forward ∧ (carry s).state.replay = s.replay ∧
    (carry s).state.activeBank = s.activeBank
  latched : ∀ s k, hasKind (carry s).state.latched k = true ↔ hasKind s.latched k = true ∧ hasKind removed k = false

theorem OnChannels.actsWith {carry : State → Carried} (ho : OnChannels carry) : ActsWith carry 0 := by
  refine ⟨fun s t h => ?_, fun s => ?_, fun s k => ?_⟩
  · obtain ⟨hs, hl⟩ := ho.state s t h
    rw [hs]; exact ⟨rfl, rfl, rfl, hl⟩
  · rw [ho.frame s]; exact ⟨rfl, rfl, rfl⟩
  · rw [ho.frame s]; simp

theorem carryAck_actsWith (kinds : KindSet) : ActsWith (carryAck kinds) kinds := by
  refine ⟨fun s t h => ?_, fun s => ⟨rfl, rfl, rfl⟩, fun s k => ?_⟩
  · unfold Linked at h; rw [h]; exact ⟨rfl, rfl, rfl, rfl⟩
  · exact (congrArg (· = true) (hasKind_removeKinds s.latched kinds k)).to_iff.trans (by simp)

theorem CarriedAs.actsWith {h : RequestHeader} {c : Instr} {carry : State → Carried} (hc : CarriedAs h c carry)
    (hn : ∀ x, c ≠ .restart h x) :
    ∃ removed, ActsWith carry removed ∧
      (removed = 0 ∨ ∃ x, c = .ackConditions h removed x ∧ h.reserved = 0) := by
  cases hc with
  | channels _ ho _ => exact ⟨0, ho.actsWith, .inl rfl⟩
  | acks kinds x hr hc => exact ⟨kinds, carryAck_actsWith kinds, .inr ⟨x, hc, hr⟩⟩
  | restarts x _ hc => exact absurd hc (hn x)

/-- What a broadcast of a command other than RESTART leaves of the links and the conditions (R129, R183, R185). -/
theorem ActsWith.carryBroadcast {carry : State → Carried} {removed : KindSet} (ha : ActsWith carry removed) (s : State) :
    (carryBroadcast carry s).forward = s.forward ∧ (carryBroadcast carry s).replay = s.replay ∧
      (carryBroadcast carry s).config = s.config ∧
      ∀ k, hasKind (carryBroadcast carry s).latched k = true ↔
        (hasKind s.latched k = true ∧ hasKind removed k = false) ∨ k ∈ (carry s).latches := by
  obtain ⟨hnoticed, hlatches, -, -⟩ := carryBroadcast_latches carry s
  obtain ⟨hforward, hreplay, hbank⟩ := ha.links s
  refine ⟨hnoticed.forward.trans hforward, hnoticed.replay.trans hreplay,
    congrArg Bank.config (hnoticed.activeBank.trans hbank), fun k => ?_⟩
  rw [hlatches.1, ha.latched]

theorem forwardWillDrop_iff (s : State) :
    s.forwardWillDrop = true ↔ s.config.forwardEnable = 1 ∧ 4 ≤ s.forward.length := by
  unfold State.forwardWillDrop ConfigRecord.forwards Config.fifoCapacity
  simp

/-- A frame for a full forward FIFO is dropped (R115). -/
theorem forwardPath_full {f : Frame} {s : State} (h : s.forwardWillDrop = true) : forwardPath f s = latch .forwardDrop s := by
  unfold State.forwardWillDrop at h
  rw [Bool.and_eq_true, decide_eq_true_eq] at h
  unfold forwardPath
  rw [if_pos h.1, if_pos h.2]

section

variable {form : BroadcastForm} {h : RequestHeader} {code : Byte} {args : List Byte} {carry : State → Carried} {s : State}
  (hl : args.length + 4 ≤ 256) (hp : h.port = .a) (hd : h.destination = 0) (hn : s.node ≠ 0)

include hl hp hd hn

theorem onRequest_broadcast_eq :
    onRequest form h code args carry s = broadcast form h code args carry (settle .aRx s) := by
  unfold onRequest takeRequest
  rw [if_neg (Nat.not_lt.mpr hl), hp, if_neg (by rw [hd]; exact hn.symm), if_pos hd]
  rfl

/-- A broadcast at A is carried out, and its frame handed to the forward path after it (R129, R146). -/
theorem onRequest_broadcastA (hf : form = .restarts ∨ form = .acts ∧ s.forwardWillDrop = false) :
    onRequest form h code args carry s =
      forwardPath (requestFrame h code args) (carryBroadcast carry (settle .aRx s)) := by
  have hon : ∀ t, handOn h code args t = forwardPath (requestFrame h code args) t := fun t => by unfold handOn; rw [hp]
  rw [onRequest_broadcast_eq hl hp hd hn, ← hon]
  obtain rfl | ⟨rfl, hw⟩ := hf
  · rfl
  · refine if_neg fun x => ?_
    have hdrop : s.forwardWillDrop = true := x.2
    rw [hw] at hdrop
    cases hdrop

/-- With a full forward FIFO the frame is dropped before or after the broadcast is carried out (R115, R129). -/
theorem onRequest_broadcastA_full (hw : s.forwardWillDrop = true) :
    onRequest .acts h code args carry s =
        forwardPath (requestFrame h code args) (carryBroadcast carry (s.beside (settle .aRx s).rx (s.choices + 1))) ∨
      onRequest .acts h code args carry s =
        carryBroadcast carry (latch .forwardDrop (s.beside (settle .aRx s).rx (s.choices + 1))) := by
  have hon : ∀ t, handOn h code args t = forwardPath (requestFrame h code args) t := fun t => by unfold handOn; rw [hp]
  rw [onRequest_broadcast_eq hl hp hd hn, ← hon,
    ← forwardPath_full (f := requestFrame h code args) (s := s.beside (settle .aRx s).rx (s.choices + 1)) hw, ← hon]
  unfold broadcast broadcastActing
  dsimp only
  rw [if_pos ⟨hp, hw⟩]
  by_cases hpar : Config.choice s.choices % 2 = 0
  · exact .inl (if_pos hpar)
  · exact .inr (if_neg hpar)

end

/-- What a broadcast at A does beside the frame it hands on is what it does at B (R129). -/
theorem broadcast_beside {h : RequestHeader} {c : Instr} {carry : State → Carried} (hc : CarriedAs h c carry) (s : State)
    (x : PerRx Rx) (n : Nat) :
    carryBroadcast carry (s.beside x n) = (carryBroadcast carry (settle .bRx s)).beside x n := by
  rw [settle_beside .bRx s, carryBroadcast_beside hc, carryBroadcast_beside hc]
  rfl

theorem settle_linkedTo (r : Receiver) {s v : State} (hv : Noticed s v) :
    Linked { settle r s with choices := (settle r v).choices } (settle r v) := by
  unfold Noticed at hv
  unfold Linked
  rw [hv]
  rfl

section

variable {h : RequestHeader} {c : Instr} {carry : State → Carried} (hc : CarriedAs h c carry) (s : State)

include hc

/-- A broadcast at A whose frame goes the way of the forward path (R115, R129). -/
theorem broadcastA_forwarded (f : Frame) :
    Settled .aRx s (forwardPath f (carryBroadcast carry (settle .aRx s))) ∧
      Forwarded f (carryBroadcast carry (settle .bRx s)) (forwardPath f (carryBroadcast carry (settle .aRx s))) := by
  have hline := (carryBroadcast_line hc (settle .bRx s)).2
  have hbeside : carryBroadcast carry (settle .aRx s) =
      (carryBroadcast carry (settle .bRx s)).beside (settle .aRx s).rx s.choices :=
    broadcast_beside hc s (settle .aRx s).rx s.choices
  have heq : carryBroadcast carry (settle .aRx s) = { carryBroadcast carry (settle .bRx s) with
      rx := (carryBroadcast carry (settle .aRx s)).rx } := by
    rw [hbeside, show s.choices = (carryBroadcast carry (settle .bRx s)).choices from hline.symm]
    rfl
  obtain ⟨hforwarded, hrx⟩ := forwardPath_forwarded f heq
  exact ⟨(settle_settled _ s).of_rx (hrx.trans (carryBroadcast_line hc (settle .aRx s)).1), hforwarded⟩

variable {removed : KindSet} (ha : ActsWith carry removed)

include ha

/-- The frame of a broadcast dropped after it is carried out (R115, R129, R183). -/
theorem broadcastA_dropAfter (x : PerRx Rx) (n : Nat) :
    let u := carryBroadcast carry (settle .bRx s)
    let t := latch .forwardDrop (carryBroadcast carry (s.beside x n))
    t.rx = x ∧ t.parks = u.parks ∧ t.targets = u.targets ∧ t.scenes = u.scenes ∧ t.forward = s.forward ∧
      t.replay = s.replay ∧ (∀ k, hasKind t.latched k = true ↔ hasKind u.latched k = true ∨ k = .forwardDrop) ∧
      Latches [.forwardDrop] u t ∧ OnlyReceiversAndConditions { u with choices := t.choices } t := by
  intro u t
  have heq : carryBroadcast carry (s.beside x n) = u.beside x n := broadcast_beside hc s x n
  obtain ⟨hlatches, honly⟩ := latch_besideRx .forwardDrop (s := { u with choices := n }) (u := u.beside x n) rfl
  have hnoticed : Noticed (u.beside x n) t := by
    show Noticed _ (latch .forwardDrop _)
    rw [heq]; exact latch_noticed _ _
  obtain ⟨hforward, hreplay, -, -⟩ := ha.carryBroadcast (settle .bRx s)
  have hchoices : t.choices = n := hnoticed.choices
  rw [← heq] at hlatches honly
  refine ⟨hnoticed.rx, hnoticed.parks, hnoticed.targets, hnoticed.scenes, hnoticed.forward.trans hforward,
    hnoticed.replay.trans hreplay, fun k => ?_, hlatches.congr rfl rfl rfl rfl, ?_⟩
  · rw [hlatches.1, List.mem_singleton]
  · rw [hchoices]; exact honly

/-- The frame of a broadcast dropped before it is carried out (R115, R129, R183). -/
theorem broadcastA_dropBefore (x : PerRx Rx) (n : Nat) :
    let u := carryBroadcast carry (settle .bRx s)
    let v := latch .forwardDrop s
    let w := carryBroadcast carry (settle .bRx v)
    let t := carryBroadcast carry (latch .forwardDrop (s.beside x n))
    t.rx = x ∧ t.parks = u.parks ∧ t.targets = u.targets ∧ t.scenes = u.scenes ∧ t.forward = s.forward ∧
      t.replay = s.replay ∧
      (∀ k, hasKind t.latched k = true ↔
        hasKind u.latched k = true ∨ k = .forwardDrop ∧ hasKind removed .forwardDrop = false) ∧
      t = { w with rx := t.rx, choices := t.choices } := by
  intro u v w t
  have ht : t = w.beside x n := by
    show carryBroadcast carry (latch .forwardDrop (s.beside x n)) = _
    rw [latch_beside]
    exact broadcast_beside hc v x n
  have hv : Noticed s v := latch_noticed _ s
  obtain ⟨hforward, hreplay, -, hlatched⟩ := ha.carryBroadcast (settle .bRx v)
  obtain ⟨-, -, -, hulatched⟩ := ha.carryBroadcast (settle .bRx s)
  obtain ⟨hw, -, -, -⟩ := carryBroadcast_latches carry (settle .bRx v)
  obtain ⟨hu, -, -, -⟩ := carryBroadcast_latches carry (settle .bRx s)
  obtain ⟨hparks, htargets, hscenes, hlatches⟩ := ha.channels (settle .bRx s) (settle .bRx v) (settle_linkedTo .bRx hv)
  rw [ht]
  refine ⟨rfl, (hw.parks.trans hparks).trans hu.parks.symm, (hw.targets.trans htargets).trans hu.targets.symm,
    (hw.scenes.trans hscenes).trans hu.scenes.symm, hforward.trans hv.forward, hreplay.trans hv.replay, fun k => ?_, rfl⟩
  have hvl : hasKind v.latched k = true ↔ hasKind s.latched k = true ∨ k = .forwardDrop := by
    rw [(latch_latches .forwardDrop s).1, List.mem_singleton]
  show hasKind w.latched k = true ↔ _
  rw [hlatched, hulatched, hlatches]
  show (hasKind v.latched k = true ∧ _) ∨ _ ↔ _
  rw [hvl]
  by_cases hk : k = .forwardDrop
  · subst hk; simp [settle]; tauto
  · simp [hk, settle]

end

/-! ## Broadcasts of other commands -/

section

variable {c : Instr} {h : RequestHeader} {code : Byte} {args : List Byte} (hp : requestParts c = some (h, code, args))
  (hw : c.wellFormed = true) (hd : h.destination = 0)

include hp hw hd

/-- A well-formed broadcast decodes to its command, whatever the node address (R128, R129). -/
theorem decodeFrame_broadcast (node : Byte) :
    decodeFrame node (rxOf h.port) (requestFrame h code args) = .ok c := by
  obtain ⟨hlen, hchecks⟩ := (wellFormed_request hp).mp hw
  refine (decodeFrame_eq_ok (payload_requestFrame h code args ▸ hlen)).mpr
    ⟨encodeFrame_request hp, hchecks, fun h' code' args' hp' => ?_⟩
  cases hp.symm.trans hp'
  refine iff_of_false ?_ fun hx => hx.2 hd
  rintro rfl
  exact hchecks.1 hd

/-- A command that is not carried out as a broadcast has no effect as one (R129). -/
theorem runFrameCommand_ignored (hcode : code ∉ ([0x20, 0x21, 0x22, 0x30, 0x31] : List Byte)) :
    ∃ carry, ∀ s, runFrameCommand c s = onRequest .ignored h code args carry s := by
  obtain ⟨-, hchecks⟩ := (wellFormed_request hp).mp hw
  cases c <;> cases hp
  case requestNotTaken => exact absurd hd hchecks.1
  case force | release | saveScene | ackConditions | restart => exact absurd (by decide) hcode
  all_goals exact ⟨_, fun _ => rfl⟩

/-- A broadcast of another command settles its receiver and is handed on at A (R129). -/
theorem exec_broadcast_ignored {s : State} (hs : s.inReset = false) (hn : s.node ≠ 0)
    (hcode : code ∉ ([0x20, 0x21, 0x22, 0x30, 0x31] : List Byte)) :
    exec c s = .next (handOn h code args (settle (rxOf h.port) s)) := by
  obtain ⟨hlen, -⟩ := (wellFormed_request hp).mp hw
  obtain ⟨carry, hrun⟩ := runFrameCommand_ignored hp hw hd hcode
  rw [exec_decoded hs (decodeFrame_broadcast hp hw hd s.node), hrun]
  unfold onRequest takeRequest
  rw [if_neg (Nat.not_lt.mpr hlen), if_neg (by rw [hd]; exact hn.symm), if_pos hd]
  rfl

end

/-! ## The claims -/

/-- Broadcasts at B (R129, R146, R147, R185, R195). -/
theorem broadcastsAtB {h g : RequestHeader} {s : State} {c d : Instr} (hs : s.inReset = false)
    (hdest : h.destination = 0) (hnode : s.node ≠ 0) (hport : h.port = .b) (hg : g = { h with destination := s.node })
    (hw : c.wellFormed = true) (hsame : SameForHeaders h g c d) :
    ∃ t u, exec c s = .next t ∧ exec d { s with queue := [], replay := ⟨none, none⟩ } = .next u ∧ Settled .bRx s t ∧
      SamePart u t ∧
      (h.reserved ≠ 0 ∨ ((∀ kinds x, c ≠ .ackConditions h kinds x) ∧ ∀ x, c ≠ .restart h x) →
        t.replay = s.replay ∧ LatchesThenFallback [] s t ∧
        OnlyAnswerAndConditions { s with parks := t.parks, targets := t.targets, scenes := t.scenes } t) ∧
      (h.reserved = 0 → ∀ kinds x, c = .ackConditions h kinds x →
        t.replay = s.replay ∧ entries t.queue = entries s.queue ∧ OnlyAnswerAndConditions s t ∧
        ∀ k, hasKind t.pendingNotices k = true ↔ hasKind s.pendingNotices k = true ∧ hasKind kinds k = false) ∧
      (h.reserved = 0 → ∀ x, c = .restart h x →
        t.replay = ⟨none, none⟩ ∧
        (EntersScene s t → Latches (.fallback :: if s.pause then [.paused] else [])
          { s with latched := 0, pendingNotices := 0, alert := false, queue := [] } t) ∧
        (¬ EntersScene s t → Latches (if s.pause then [.paused] else [])
          { s with latched := 0, pendingNotices := 0, alert := false, queue := [] } t) ∧
        OnlyAnswerAndConditions { s with
          ports := t.ports
          parks := t.parks
          targets := t.targets
          missed := t.missed
          forward := t.forward
          relay := []
          queue := []
          session := t.session
          pointer := t.pointer } t) := by
  obtain ⟨carry, u, hcar, hc, hd, hpart⟩ := broadcast_atB hs hdest hnode hport hg hw hsame
  refine ⟨_, u, hc, hd, (settle_settled _ s).of_rx (carryBroadcast_line hcar _).1, hpart, ?_⟩
  cases hcar with
  | channels carry ho hno =>
    refine ⟨fun _ => broadcastB_channels ho s, fun hr kinds x hx => ?_, fun hr x hx => ?_⟩
    · exact hno.elim (absurd hr) fun hne => absurd hx (hne.1 kinds x)
    · exact hno.elim (absurd hr) fun hne => absurd hx (hne.2 x)
  | acks kinds x hr hx =>
    refine ⟨fun hno => hno.elim (absurd hr) fun hne => absurd hx (hne.1 kinds x), fun _ kinds' x' hx' => ?_,
      fun _ x' hx' => ?_⟩
    · cases hx.symm.trans hx'
      exact broadcastB_acks kinds s
    · cases hx.symm.trans hx'
  | restarts x hr hx =>
    refine ⟨fun hno => hno.elim (absurd hr) fun hne => absurd hx (hne.2 x), fun _ kinds' x' hx' => ?_,
      fun _ x' hx' => broadcastB_restarts s⟩
    cases hx.symm.trans hx'

/-- A RESTART empties the reply queue whatever it holds (R145). -/
theorem CarriedAs.restart_queue {h : RequestHeader} {x : List Byte} {carry : State → Carried}
    (hc : CarriedAs h (.restart h x) carry) (hr : h.reserved = 0) (s : State) (q : List QueueEntry) :
    carryBroadcast carry (settle .bRx { s with queue := q }) = carryBroadcast carry (settle .bRx s) := by
  cases hc with
  | channels _ _ hno => exact hno.elim (absurd hr) fun hne => absurd rfl (hne.2 x)
  | acks _ _ _ hx => cases hx
  | restarts => rfl

/-- Broadcasts at A (R115, R129, R146, R183). -/
theorem broadcastsAtA {h g : RequestHeader} {s : State} {c d : Instr} {code : Byte} {args : List Byte}
    (hs : s.inReset = false) (hdest : h.destination = 0) (hnode : s.node ≠ 0) (hport : h.port = .a)
    (hg : g = { h with port := .b }) (hw : c.wellFormed = true) (hsame : SameForHeaders h g c d)
    (hparts : requestParts c = some (h, code, args)) :
    ∃ t u, exec c s = .next t ∧
      exec d (if code = 0x31 ∧ h.reserved = 0 then { s with queue := [] } else s) = .next u ∧
      Settled .aRx s t ∧
      (s.config.forwardEnable ≠ 1 ∨ s.forward.length < 4 ∨ code = 0x31 →
        Forwarded ⟨0x10, 0 :: h.tag :: code :: h.reserved :: args⟩ u t) ∧
      (s.config.forwardEnable = 1 → 4 ≤ s.forward.length → code ≠ 0x31 →
        t.parks = u.parks ∧ t.targets = u.targets ∧ t.scenes = u.scenes ∧ t.forward = s.forward ∧
        t.replay = s.replay ∧
        (∀ k, k ≠ .forwardDrop → (hasKind t.latched k = true ↔ hasKind u.latched k = true)) ∧
        ((∀ kinds x, c = .ackConditions h kinds x → h.reserved = 0 → hasKind kinds .forwardDrop = false) →
          hasKind t.latched .forwardDrop = true) ∧
        ((Latches [.forwardDrop] u t ∧ OnlyReceiversAndConditions { u with choices := t.choices } t) ∨
         ∃ v w, Latches [.forwardDrop] s v ∧ OnlyReceiversAndConditions s v ∧ exec d v = .next w ∧
           t = { w with rx := t.rx, choices := t.choices })) := by
  obtain ⟨form, code', args', carry, hparts', hl, hform, hcar, hc, hd⟩ := sameForHeaders_carried hsame (by rw [hg]) hw
  cases hparts.symm.trans hparts'
  have hf : form ≠ .ignored := by rintro rfl; rcases hform with ⟨h, -⟩ | ⟨h, -⟩ <;> cases h
  have hframe : requestFrame h code args = ⟨0x10, 0 :: h.tag :: code :: h.reserved :: args⟩ := by
    unfold requestFrame; rw [hdest]; rfl
  have hexecB : ∀ v : State, v.inReset = false → v.node ≠ 0 → exec d v = .next (carryBroadcast carry (settle .bRx v)) :=
    fun v hv hvn => (hd v hv).trans
      (congrArg _ (onRequest_broadcastB hf hl (by rw [hg]) (by rw [hg]; exact hdest) hvn))
  have hu : exec d (if code = 0x31 ∧ h.reserved = 0 then { s with queue := [] } else s) =
      .next (carryBroadcast carry (settle .bRx s)) := by
    split
    next hrestart =>
      obtain ⟨-, hcode, -⟩ | ⟨-, -, x, rfl⟩ := hform
      · exact absurd hrestart.1 hcode
      · rw [hexecB { s with queue := [] } hs hnode, hcar.restart_queue hrestart.2]
    next => exact hexecB s hs hnode
  by_cases hdrop : form = .restarts ∨ form = .acts ∧ s.forwardWillDrop = false
  · obtain ⟨hsettled, hforwarded⟩ := broadcastA_forwarded hcar s (requestFrame h code args)
    refine ⟨_, _, (hc s hs).trans (congrArg _ (onRequest_broadcastA hl hport hdest hnode hdrop)), hu, hsettled,
      fun _ => hframe ▸ hforwarded, fun hen hlen hcode => ?_⟩
    obtain rfl | ⟨-, hw⟩ := hdrop
    · rcases hform with ⟨h, -⟩ | ⟨-, h, -⟩
      · cases h
      · exact absurd h hcode
    · rw [(forwardWillDrop_iff s).mpr ⟨hen, hlen⟩] at hw
      cases hw
  · obtain ⟨rfl, hcode, hne⟩ : form = .acts ∧ code ≠ 0x31 ∧ ∀ x, c ≠ .restart h x :=
      hform.resolve_right fun hr => hdrop (.inl hr.1)
    have hfull : s.forwardWillDrop = true := by
      by_contra hw
      exact hdrop (.inr ⟨rfl, Bool.eq_false_iff.mpr hw⟩)
    obtain ⟨hen, hlen⟩ := (forwardWillDrop_iff s).mp hfull
    have hnot : ¬ (s.config.forwardEnable ≠ 1 ∨ s.forward.length < 4 ∨ code = 0x31) := by
      rintro (h | h | h)
      · exact h hen
      · omega
      · exact hcode h
    obtain ⟨removed, hacts, hremoved⟩ := hcar.actsWith hne
    set x := (settle .aRx s).rx with hx
    obtain hafter | hbefore := onRequest_broadcastA_full (carry := carry) hl hport hdest hnode hfull
    · obtain ⟨hrx, hparks, htargets, hscenes, hforward, hreplay, hlatched, hlatches, honly⟩ :=
        broadcastA_dropAfter hcar s hacts x (s.choices + 1)
      have hstill : (carryBroadcast carry (s.beside x (s.choices + 1))).forwardWillDrop = true := by
        obtain ⟨hf, -, hcfg, -⟩ := hacts.carryBroadcast (s.beside x (s.choices + 1))
        exact (forwardWillDrop_iff _).mpr ⟨by rw [hcfg]; exact hen, by rw [hf]; exact hlen⟩
      rw [forwardPath_full hstill] at hafter
      refine ⟨_, _, (hc s hs).trans (congrArg _ hafter), hu, (settle_settled _ s).of_rx hrx, fun h => absurd h hnot,
        fun _ _ _ => ⟨hparks, htargets, hscenes, hforward, hreplay, fun k hk => ?_, fun _ => ?_, .inl ⟨hlatches, honly⟩⟩⟩
      · rw [hlatched]; simp [hk]
      · rw [hlatched]; exact .inr rfl
    · obtain ⟨hrx, hparks, htargets, hscenes, hforward, hreplay, hlatched, ht⟩ :=
        broadcastA_dropBefore hcar s hacts x (s.choices + 1)
      refine ⟨_, _, (hc s hs).trans (congrArg _ hbefore), hu, (settle_settled _ s).of_rx hrx, fun h => absurd h hnot,
        fun _ _ _ => ⟨hparks, htargets, hscenes, hforward, hreplay, fun k hk => ?_, fun hack => ?_, .inr ?_⟩⟩
      · rw [hlatched]; simp [hk]
      · rw [hlatched]
        refine .inr ⟨rfl, ?_⟩
        obtain rfl | ⟨y, hy, hr⟩ := hremoved
        · exact hasKind_zero _
        · exact hack removed y hy hr
      · obtain ⟨hl1, ho1⟩ := latch_besideRx .forwardDrop (s := s) (u := s) rfl
        have hn := latch_noticed .forwardDrop s
        exact ⟨_, _, hl1, ho1, hexecB _ (hn.inReset.trans hs) (by rw [hn.node]; exact hnode), ht⟩

/-- Settles O35: what the five commands do does not depend on the links, which the broadcast, its notices and its frame
change alone. -/
theorem broadcastsAreNotAnswered : Obligations.BroadcastsAreNotAnswered := by
  refine ⟨fun h g s c d hs hdest hnode hport hg hw hsame => ?_,
    fun h g s c d code args hs hdest hnode hport hg hw hsame hparts =>
      broadcastsAtA hs hdest hnode hport hg hw hsame hparts,
    fun c h code args s hp hw hs hd hn hcode => ⟨_, exec_broadcast_ignored hp hw hd hs hn hcode, ?_⟩⟩
  · obtain ⟨t, u, hc, hd, hsettled, hpart, hchannels, hacks, hrestarts⟩ :=
      broadcastsAtB hs hdest hnode hport hg hw hsame
    simp only [SamePart, Prod.mk.injEq] at hpart
    obtain ⟨e1, e2, e3, e4, e5, e6, e7, e8, e9, el, ea, -⟩ := hpart
    exact ⟨t, u, hc, hd, hsettled, e1, e2, e3, e4, e5, e6, e7, e8, e9, el, ea, hchannels, hacks, hrestarts⟩
  · unfold handOn
    cases hport : h.port with
    | a =>
      obtain ⟨hsettled, hforwarded⟩ := settle_forwarded .aRx (requestFrame h code args) s
      refine ⟨hsettled, nofun, fun _ => ?_⟩
      unfold requestFrame at hforwarded ⊢
      rw [hd] at hforwarded ⊢
      exact hforwarded
    | b => exact ⟨settle_settled _ s, fun _ => rfl, nofun⟩

end Sys2Proof.Machine
end

section
/-! READ_CHANNELS and READ_INPUTS (O37). -/

namespace Sys2Proof.Machine

/-! ## Ranges of a table -/

/-- A range within a table has as many entries as it names. -/
theorem Table.length_readRange {α : Type} {n first count : Nat} (v : Vector α n) (h : first + count ≤ n) :
    (readRange first count v).length = count := by
  simp only [readRange, List.length_take, List.length_drop, Vector.length_toList]
  omega

/-- The entries of a range are those of the table from its first on. -/
theorem Table.getElem?_readRange {α : Type} {n first count i : Nat} (v : Vector α n) (c : Fin n) (hc : c.val = first + i)
    (hi : i < count) : (readRange first count v)[i]? = some v[c] := by
  rw [readRange, List.getElem?_take_of_lt hi, List.getElem?_drop, ← hc]
  simp

/-! ## Read commands -/

/-- A read command that is executed answers, and changes nothing of what it reads (R144). -/
theorem executed_read {h : RequestHeader} {code : Byte} {args : List Byte} {carry : State → Carried} {s : State}
    (hres : h.reserved = 0) (he : Executes h code args s) {r : Result} {data : List Byte}
    (hc : carry (settle (rxOf h.port) s) = ⟨settle (rxOf h.port) s, r, data, []⟩) :
    ∃ t, whenRunning (onRequest .ignored h code args (guardReserved h carry)) s = .next t ∧ Settled (rxOf h.port) s t ∧
      OnlyAnswer s t ∧ Answered h code r data [] s t :=
  ⟨_, whenRunning_next he.1, executed_same he ((if_pos hres).trans hc)⟩

/-- READ_CHANNELS within its range is answered OK with the records of the channels (R90, R209). -/
theorem carryReadChannels_ok {first : BitVec 16} {count : Byte} (s : State) (h1 : 1 ≤ count.toNat) (h2 : count.toNat ≤ 16)
    (h3 : first.toNat + count.toNat ≤ 384) :
    carryReadChannels first count s = ⟨s, .ok, bytes16 first ++ [count] ++
      ((Table.readRange first.toNat count.toNat (Vector.zip s.fades s.targets)).map
        fun x => channelRecord x.1 x.2).flatten, []⟩ :=
  if_neg (by omega)

/-- READ_CHANNELS outside its range is refused (R90). -/
theorem carryReadChannels_bad {first : BitVec 16} {count : Byte} (s : State)
    (h : count.toNat < 1 ∨ 16 < count.toNat ∨ 384 < first.toNat + count.toNat) :
    carryReadChannels first count s = ⟨s, .badArgument, [], []⟩ :=
  if_pos (by omega)

/-- READ_INPUTS within its range is answered OK with the slots of its port (R38, R206). -/
theorem carryReadInputs_ok {p : Port} {port : Byte} {first : BitVec 16} {count : Byte} (s : State)
    (hp : port = if p = .a then 0 else 1) (h1 : 1 ≤ count.toNat) (h2 : count.toNat ≤ 64)
    (h3 : first.toNat + count.toNat ≤ 384) :
    carryReadInputs port first count s = ⟨s, .ok, [port] ++ bytes16 first ++ [count] ++
      ((Table.readRange first.toNat count.toNat (s.ports.get p).slots).map slotBytes).flatten, []⟩ := by
  have hcode : portOfCode port = some p := by subst hp; cases p <;> rfl
  rw [carryReadInputs, hcode]
  exact if_neg (by omega)

/-- READ_INPUTS outside its range, or of no port, is refused (R38). -/
theorem carryReadInputs_bad {port : Byte} {first : BitVec 16} {count : Byte} (s : State)
    (h : 1 < port.toNat ∨ count.toNat < 1 ∨ 64 < count.toNat ∨ 384 < first.toNat + count.toNat) :
    carryReadInputs port first count s = ⟨s, .badArgument, [], []⟩ := by
  unfold carryReadInputs
  split
  · rfl
  · rename_i p hcode
    have hport : port.toNat ≤ 1 := by
      by_contra hn
      rw [portOfCode, if_neg (by rintro rfl; exact hn (by decide)), if_neg (by rintro rfl; exact hn (by decide))] at hcode
      cases hcode
    exact if_pos (by omega)

/-- Settles O37: a range within its limits is answered with its records one by one, any other is refused, and both leave
the state to the answer alone. -/
theorem channelsAndInputsAreRead : Obligations.ChannelsAndInputsAreRead := by
  refine ⟨fun h first count extra s hres he => ⟨fun h1 h2 h3 => ?_, fun hbad => ?_⟩,
    fun h port first count extra s hres he => ⟨fun p hp h1 h2 h3 => ?_, fun hbad => ?_⟩⟩
  · obtain ⟨t, hexec, hsettled, honly, hanswered⟩ := executed_read hres he (carryReadChannels_ok _ h1 h2 h3)
    refine ⟨t, _, hexec, hsettled, honly, hanswered, ?_, fun i c hc hi => ?_⟩
    · rw [List.length_map, Table.length_readRange _ h3]
    · rw [List.getElem?_map, Table.getElem?_readRange _ c hc hi]
      simp only [Fin.getElem_fin, Vector.getElem_zip]
      rfl
  · exact executed_read hres he (carryReadChannels_bad _ hbad)
  · obtain ⟨t, hexec, hsettled, honly, hanswered⟩ := executed_read hres he (carryReadInputs_ok _ hp h1 h2 h3)
    refine ⟨t, _, hexec, hsettled, honly, hanswered, ?_, fun i c hc hi => ?_⟩
    · rw [List.length_map, Table.length_readRange _ h3]
    · rw [List.getElem?_map, Table.getElem?_readRange _ c hc hi]
      rfl
  · exact executed_read hres he (carryReadInputs_bad _ hbad)

end Sys2Proof.Machine
end

section
/-! Loss and hold expiries (O19). -/

namespace Sys2Proof.Machine

/-! ## Latchings before FALLBACK -/

/-- The kinds that latch between two states, FALLBACK among them (R57, R183). -/
theorem LatchesThenFallback.hasKind {ks : List Condition} {s t : State} (h : LatchesThenFallback ks s t) (k : Condition) :
    hasKind t.latched k = true ↔ hasKind s.latched k = true ∨ k ∈ ks ∨ (k = .fallback ∧ EntersScene s t) := by
  by_cases hs : EntersScene s t
  · rw [(h.1 hs).1]; simp [hs]
  · rw [(h.2 hs).1]; simp [hs]

/-- What latches after a change beside the conditions, the program and the targets latches before it. -/
theorem LatchesThenFallback.congr {ks : List Condition} {s s' t : State} (h : LatchesThenFallback ks s t)
    (hnode : s.node = s'.node) (hbank : s.activeBank = s'.activeBank) (hcond : s.conditions = s'.conditions)
    (htargets : s.targets = s'.targets) : LatchesThenFallback ks s' t := by
  unfold LatchesThenFallback EntersScene at *
  rw [← htargets]
  exact ⟨fun hs => (h.1 hs).congr hnode hbank hcond rfl, fun hs => (h.2 hs).congr hnode hbank hcond rfl⟩

/-! ## Expiries -/

/-- What the expiry of a timer of a port at an instant does: the port has the unit `v`, these kinds latch and FALLBACK
after them where a channel enters SCENE, every channel with a source on the port is resolved, and nothing else happens
(R21, R57, R58, R183). -/
structure Expired (p : Port) (n : Nat) (v : PortUnit) (ks : List Condition) (s t : State) : Prop where
  now : t.now = max s.now n
  rx : t.rx = s.rx
  port : t.ports.get p = v
  others : ∀ q, q ≠ p → t.ports.get q = s.ports.get q
  latches : LatchesThenFallback ks s t
  targets : ∀ c : Fin Config.channels,
    (OnPort p s.activeBank.map[c].sources.1 ∨ OnPort p s.activeBank.map[c].sources.2 →
      t.targets[c] = resolveTarget t c s.targets[c]) ∧
    (¬ OnPort p s.activeBank.map[c].sources.1 → ¬ OnPort p s.activeBank.map[c].sources.2 →
      t.targets[c] = s.targets[c])
  only : OnlyReceiversAndConditions { s with now := t.now, ports := t.ports, targets := t.targets } t

/-- A port that changes at an expiry, latches and reports its change of state. -/
theorem stateReport_expired (p : Port) (n : Nat) (v : PortUnit) (ks : List Condition) (s : State) :
    Expired p n v ks s (stateReport p (latchAll ks ((s.reach n).setPort p v))) := by
  have hw := latchAll_noticed ks ((s.reach n).setPort p v)
  have hl : Latches ks s (latchAll ks ((s.reach n).setPort p v)) :=
    (Latches.refl (s := s) rfl).append (latchAll_latches ks ((s.reach n).setPort p v)) rfl rfl
  have hr : ReturnsServe s ((s.reach n).setPort p v) := .of_same rfl rfl rfl rfl rfl
  obtain ⟨hrw, hnw⟩ := latchAll_serves ks ((s.reach n).setPort p v)
  generalize latchAll ks ((s.reach n).setPort p v) = w at *
  obtain ⟨ht, htargets, -⟩ := stateReport_facts p w
  obtain ⟨hlt, hrt, -⟩ := stateReport_latches p w
  generalize stateReport p w = t at *
  have hnow : t.now = w.now := ht.now
  have hports : t.ports = s.ports.set p v := ht.ports.trans hw.ports
  have hbank : w.activeBank = s.activeBank := hw.activeBank
  have hkept : w.targets = s.targets := hw.targets
  rw [hbank, hkept] at htargets
  refine ⟨hnow.trans hw.now, ht.rx.trans hw.rx, ?_, fun q hq => ?_,
    hl.thenFallback hlt hw.node hbank fun c => by rw [hkept], htargets, ?_, ?_⟩
  · rw [hports, PerPort.get_set_self]
  · rw [hports, PerPort.get_set, if_neg hq]
  · rw [hnow, hports]
    unfold Noticed at ht hw
    rw [ht, hw]
    rfl
  · exact (hr.trans hrw id hw.now).trans hrt hnw hnow

theorem exec_lossExpiry {p : Port} {n : Nat} {s : State} (hs : s.inReset = false) (hn : (s.ports.get p).lossAt = some n) :
    exec (.lossExpiry p) s = .next (lossEvent p n (s.reach n)) := by
  refine (whenRunning_next hs).trans ?_
  rw [lossExpiryOp, hn]

theorem exec_holdExpiry {p : Port} {n : Nat} {s : State} (hs : s.inReset = false) (hn : (s.ports.get p).holdAt = some n) :
    exec (.holdExpiry p) s = .next (holdEvent p (s.reach n)) := by
  refine (whenRunning_next hs).trans ?_
  rw [holdExpiryOp, hn]

/-- A loss expiry in ACQUIRING releases the port and latches nothing (R28). -/
theorem lossEvent_expired_acquiring {p : Port} {s : State} (n : Nat) (h : (s.ports.get p).state = .acquiring) :
    Expired p n (s.ports.get p).released [] s (lossEvent p n (s.reach n)) := by
  rw [lossEvent_acquiring (s := s.reach n) h]
  exact stateReport_expired p n _ [] s

/-- A loss expiry in LIVE without a hold time releases the port (R29). -/
theorem lossEvent_expired_released {p : Port} {s : State} (n : Nat) (h : (s.ports.get p).state = .live)
    (hold : s.config.holdTime.get p = 0) :
    Expired p n (s.ports.get p).released [.loss p, .releaseOf p] s (lossEvent p n (s.reach n)) := by
  rw [(lossEvent_live (s := s.reach n) h).trans (if_pos hold)]
  exact stateReport_expired p n _ [.loss p, .releaseOf p] s

/-- A loss expiry in LIVE with a hold time begins the hold at the instant it was due (R24, R29). -/
theorem lossEvent_expired_holding {p : Port} {s : State} (n : Nat) (h : (s.ports.get p).state = .live)
    (hold : s.config.holdTime.get p ≠ 0) :
    Expired p n { s.ports.get p with state := .holding, lossAt := none, holdAt := some (n + s.holdClocks p) } [.loss p] s
      (lossEvent p n (s.reach n)) := by
  rw [(lossEvent_live (s := s.reach n) h).trans (if_neg hold)]
  exact stateReport_expired p n _ [.loss p] s

/-- A hold expiry in HOLDING releases the port (R30). -/
theorem holdEvent_expired {p : Port} {s : State} (n : Nat) (h : (s.ports.get p).state = .holding) :
    Expired p n (s.ports.get p).released [.releaseOf p] s (holdEvent p (s.reach n)) := by
  rw [holdEvent_holding (s := s.reach n) h]
  exact stateReport_expired p n _ [.releaseOf p] s

/-- Settles O19: each expiry is one change of its port, with the kinds of its state, and a report of it. -/
theorem lossAndHoldExpiries : Obligations.LossAndHoldExpiries := by
  have hslots : ∀ u : PortUnit, Invalidated u.slots u.released.slots := fun u => invalidate_invalidated u.slots
  refine ⟨fun p n s hs hn hstate => ?_, fun p n s hs hn hstate => ?_⟩
  · obtain hacq | hlive := hstate
    · have e := lossEvent_expired_acquiring n hacq
      refine ⟨_, _, _, exec_lossExpiry hs hn, e.now, e.rx, rfl, e.port.symm, rfl, rfl,
        fun _ => ⟨rfl, rfl, rfl, hslots _⟩, fun h => absurd h (by simp [hacq]), e.others, fun k => ?_, ?_, e.targets, e.only⟩
      · rw [e.latches.hasKind]; simp [hacq]
      · simpa [hacq] using e.latches
    · by_cases hold : s.config.holdTime.get p = 0#8
      · have e := lossEvent_expired_released n hlive hold
        refine ⟨_, _, _, exec_lossExpiry hs hn, e.now, e.rx, rfl, e.port.symm, rfl, rfl,
          fun _ => ⟨rfl, rfl, rfl, hslots _⟩, fun _ h => absurd hold h, e.others, fun k => ?_, ?_, e.targets, e.only⟩
        · rw [e.latches.hasKind]; simp [hlive, hold, or_assoc]
        · simpa [hlive, hold] using e.latches
      · have e := lossEvent_expired_holding n hlive hold
        have hnot : ¬ ((s.ports.get p).state = .acquiring ∨ s.config.holdTime.get p = 0) := by simpa [hlive] using hold
        refine ⟨_, _, _, exec_lossExpiry hs hn, e.now, e.rx, rfl, e.port.symm, rfl, rfl, fun h => absurd h hnot,
          fun _ _ => ⟨rfl, rfl, rfl, rfl⟩, e.others, fun k => ?_, ?_, e.targets, e.only⟩
        · rw [e.latches.hasKind]; simp [hlive, hold]
        · simpa [hlive, hold] using e.latches
  · have e := holdEvent_expired n hstate
    refine ⟨_, _, _, exec_holdExpiry hs hn, e.now, e.rx, rfl, e.port.symm, rfl, rfl, rfl, rfl, rfl, hslots _,
      e.others, fun k => ?_, e.latches, e.targets, e.only⟩
    rw [e.latches.hasKind, List.mem_singleton]

end Sys2Proof.Machine
end

section
/-! Accepted LEVEL frames (O17). -/

namespace Sys2Proof.Machine

/-! ## The port at a good frame -/

/-- A good frame at a port in SILENT or RELEASED (R25). -/
theorem goodFrameUnit_first (now loss n : Nat) {u : PortUnit} (h : u.state = .silent ∨ u.state = .released) :
    (goodFrameUnit now loss n u).1.acquired = 1 ∧ (goodFrameUnit now loss n u).1.holdAt = u.holdAt ∧
      (goodFrameUnit now loss n u).1.state = if n = 1 then .live else .acquiring := by
  unfold goodFrameUnit
  by_cases hn : n = 1 <;> obtain h | h := h <;> simp [h, hn]

/-- A good frame at a port in ACQUIRING (R26). -/
theorem goodFrameUnit_acquiring (now loss n : Nat) {u : PortUnit} (h : u.state = .acquiring) :
    (goodFrameUnit now loss n u).1.acquired = u.acquired + 1 ∧ (goodFrameUnit now loss n u).1.holdAt = u.holdAt ∧
      (goodFrameUnit now loss n u).1.state = if n ≤ u.acquired + 1 then .live else .acquiring := by
  unfold goodFrameUnit
  by_cases hn : n ≤ u.acquired + 1 <;> simp [h, hn]

/-- A good frame at a port in LIVE (R27). -/
theorem goodFrameUnit_stays (now loss n : Nat) {u : PortUnit} (h : u.state = .live) :
    (goodFrameUnit now loss n u).1.acquired = u.acquired ∧ (goodFrameUnit now loss n u).1.holdAt = u.holdAt ∧
      (goodFrameUnit now loss n u).1.state = .live := by
  simp [goodFrameUnit, h]

/-- A good frame at a port in HOLDING (R27). -/
theorem goodFrameUnit_holding (now loss n : Nat) {u : PortUnit} (h : u.state = .holding) :
    (goodFrameUnit now loss n u).1.acquired = u.acquired ∧ (goodFrameUnit now loss n u).1.holdAt = none ∧
      (goodFrameUnit now loss n u).1.state = .live := by
  simp [goodFrameUnit, h]

/-! ## The channels concerned -/

/-- The change set of a frame (R20). -/
theorem inChangeSet_iff (slots : Vector Slot Config.channels) (f : LevelFrame) (i : Fin Config.channels) :
    inChangeSet slots f i = true ↔ ∃ v, f.first.toNat ≤ i.val ∧ f.levels[i.val - f.first.toNat]? = some v ∧
      (slots[i].valid = false ∨ slots[i].level ≠ v) := by
  unfold inChangeSet frameLevel
  by_cases hi : f.first.toNat ≤ i.val
  · cases hv : f.levels[i.val - f.first.toNat]? <;> simp [hi]
  · simp [hi]

/-- A source that a report of a port concerns (R58). -/
theorem sourceConcerned_iff (p : Port) (changed : Fin Config.channels → Bool) (b : Bool) (src : Option Source) :
    sourceConcerned p changed b src = true ↔ ∃ i, src = some ⟨p, i⟩ ∧ (b = true ∨ changed i = true) := by
  unfold sourceConcerned
  cases src with
  | none => simp
  | some x =>
    obtain ⟨q, i⟩ := x
    simp [and_assoc]

/-- The channels that an accepted frame's report resolves are those the claims call concerned (R20, R21, R58). -/
theorem entryConcerned_iff (p : Port) (f : LevelFrame) (u : PortUnit) (after : PortState) (e : MapEntry) :
    entryConcerned p (inChangeSet u.slots f) (after != u.state) e = true ↔ Concerned p f u after e := by
  unfold entryConcerned Concerned
  rw [Bool.or_eq_true, sourceConcerned_iff, sourceConcerned_iff, ← exists_or]
  simp only [inChangeSet_iff, bne_iff_ne, or_and_right]

/-- An owner move changes the owner only (R47). -/
theorem moveOwner_eq (p : Port) (moved : Fin Config.channels → Bool) (e : MapEntry) (t : TargetRecord) :
    moveOwner p moved e t = { t with owner := (moveOwner p moved e t).owner } := by
  unfold moveOwner
  repeat' split
  all_goals rfl

/-! ## The claim -/

/-- What an accepted frame does to the targets (R47, R53, R58). -/
theorem acceptFrame_target {p : Port} {f : LevelFrame} {s t : State} {u : PortUnit} {after : PortState}
    {c : Fin Config.channels}
    (h : t.targets[c] =
      let r := moveOwner p (changesValid u.slots f) s.activeBank.map[c] s.targets[c]
      if entryConcerned p (inChangeSet u.slots f) (after != u.state) s.activeBank.map[c] then resolveTarget t c r else r) :
    (Concerned p f u after s.activeBank.map[c] →
      t.targets[c] = resolveTarget t c { s.targets[c] with owner := t.targets[c].owner }) ∧
    (¬ Concerned p f u after s.activeBank.map[c] → t.targets[c] = s.targets[c]) := by
  have hiff := entryConcerned_iff p f u after s.activeBank.map[c]
  refine ⟨fun hc => ?_, fun hc => ?_⟩
  · have ht := h.trans (if_pos (hiff.mpr hc))
    have howner := congrArg TargetRecord.owner ht
    rw [resolveTarget_owner] at howner
    rw [howner, ← moveOwner_eq]
    exact ht
  · have hnot := mt hiff.mp hc
    exact (h.trans (if_neg hnot)).trans (moveOwner_unconcerned _ hnot)

/-- Settles O17: the frame is written, then the good-frame event, the owner moves and the report follow, on the state its
receiver leaves. -/
theorem acceptedFramesAreTaken : Obligations.AcceptedFramesAreTaken := by
  intro p f s hs hw ha
  obtain ⟨hports, hnoticed, htargets, hlatched⟩ := acceptFrame_facts p f (settle (rxOf p) s)
  obtain ⟨hlatches, hserves⟩ := acceptFrame_latches p f (settle (rxOf p) s)
  refine ⟨_, s.ports.get p, _, levelCommand_accepted p f s hs hw ha, (settle_settled _ s).of_rx hnoticed.rx,
    rfl, rfl, ?_⟩
  generalize acceptFrame p f (settle (rxOf p) s) = t at *
  have hport : t.ports.get p = _ := (congrArg (PerPort.get · p) hports).trans (PerPort.get_set_self _ p _)
  obtain ⟨hslots, hsequence, hloss⟩ := goodFrameUnit_rest s.now (s.lossClocks p) s.config.acquireCount.toNat
    { s.ports.get p with slots := writeSlots (s.ports.get p).slots f, lastSequence := f.sequence }
  refine ⟨fun i => ?_, ?_, ?_, fun h => ?_, fun h => ?_, fun h => ?_, fun h => ?_, fun q hq => ?_, fun k => ?_,
    hlatches.congr rfl rfl rfl rfl, fun c => ?_, ?_, hserves⟩
  · have hwritten : (t.ports.get p).slots = writeSlots (s.ports.get p).slots f := by rw [hport]; exact hslots
    rw [hwritten]; exact writeSlots_get _ _ i
  · rw [hport]; exact hsequence
  · rw [hport]; exact hloss
  · rw [hport]; exact goodFrameUnit_first _ _ _ h
  · rw [hport]; exact goodFrameUnit_acquiring _ _ _ h
  · rw [hport]; exact goodFrameUnit_stays _ _ _ h
  · rw [hport]; exact goodFrameUnit_holding _ _ _ h
  · rw [hports, PerPort.get_set, if_neg hq]; rfl
  · rw [hport]; exact hlatched k
  · rw [hport]; exact acceptFrame_target (htargets c)
  · unfold Noticed at hnoticed
    rw [hnoticed]; rfl

end Sys2Proof.Machine
end

section
/-! Every operation keeps the port units sound (O57). -/

namespace Sys2Proof.Machine

/-! ## One port unit -/

theorem PortUnit.sound_silent_or_released {u : PortUnit} (h : u.state = .silent ∨ u.state = .released) :
    u.Sound ↔ u.acquired = 0 ∧ u.lossAt = none ∧ u.holdAt = none ∧
      ∀ i : Fin Config.channels, u.slots[i].valid = false := by
  obtain h | h := h <;> simp [PortUnit.Sound, h]

theorem PortUnit.sound_acquiring_or_live {u : PortUnit} (h : u.state = .acquiring ∨ u.state = .live) :
    u.Sound ↔ u.lossAt.isSome = true ∧ u.holdAt = none := by
  obtain h | h := h <;> simp [PortUnit.Sound, h]

theorem PortUnit.sound_holding {u : PortUnit} (h : u.state = .holding) :
    u.Sound ↔ u.lossAt = none ∧ u.holdAt.isSome = true := by
  simp [PortUnit.Sound, h]

theorem invalidate_valid (v : Vector Slot Config.channels) (i : Fin Config.channels) : (invalidate v)[i].valid = false := by
  rw [invalidate_invalidated v i]

/-- A port entering RELEASED is sound, whatever it was (R22, R28 to R30). -/
theorem PortUnit.released_sound (u : PortUnit) : u.released.Sound :=
  (sound_silent_or_released (.inr rfl)).mpr ⟨rfl, rfl, rfl, invalidate_valid _⟩

/-- A port entering SILENT is sound, whatever it was (R22, R33, R37). -/
theorem PortUnit.silenced_sound (u : PortUnit) : u.silenced.Sound :=
  (sound_silent_or_released (.inl rfl)).mpr ⟨rfl, rfl, rfl, invalidate_valid _⟩

/-- A sound port that does not hold has its hold timer stopped (R24). -/
theorem PortUnit.Sound.holdAt {u : PortUnit} (h : u.Sound) (hs : u.state ≠ .holding) : u.holdAt = none := by
  cases hu : u.state with
  | silent => exact ((sound_silent_or_released (.inl hu)).mp h).2.2.1
  | released => exact ((sound_silent_or_released (.inr hu)).mp h).2.2.1
  | acquiring => exact ((sound_acquiring_or_live (.inl hu)).mp h).2
  | live => exact ((sound_acquiring_or_live (.inr hu)).mp h).2
  | holding => exact absurd hu hs

/-- A sound port that waits for no frame has its loss timer stopped (R24). -/
theorem PortUnit.Sound.lossAt {u : PortUnit} (h : u.Sound) (ha : u.state ≠ .acquiring) (hl : u.state ≠ .live) :
    u.lossAt = none := by
  cases hu : u.state with
  | silent => exact ((sound_silent_or_released (.inl hu)).mp h).2.1
  | released => exact ((sound_silent_or_released (.inr hu)).mp h).2.1
  | acquiring => exact absurd hu ha
  | live => exact absurd hu hl
  | holding => exact ((sound_holding hu).mp h).1

/-- Stopping a timer that a sound port does not run changes nothing (R24). -/
theorem PortUnit.Sound.stopLoss {u : PortUnit} (h : u.Sound) (ha : u.state ≠ .acquiring) (hl : u.state ≠ .live) :
    { u with lossAt := none }.Sound := by
  rw [← h.lossAt ha hl]; exact h

/-- See `PortUnit.Sound.stopLoss`. -/
theorem PortUnit.Sound.stopHold {u : PortUnit} (h : u.Sound) (hs : u.state ≠ .holding) :
    { u with holdAt := none }.Sound := by
  rw [← h.holdAt hs]; exact h

/-- The acquire count of a port in ACQUIRING may be any (R23). -/
theorem PortUnit.Sound.clearCount {u : PortUnit} (h : u.Sound) (hu : u.state = .acquiring) :
    { u with acquired := 0 }.Sound :=
  (sound_acquiring_or_live (u := { u with acquired := 0 }) (.inl hu)).mpr ((sound_acquiring_or_live (.inl hu)).mp h)

/-- A good-frame event leaves the port in ACQUIRING or LIVE (R25 to R27). -/
theorem goodFrameUnit_state (now loss n : Nat) (u : PortUnit) :
    (goodFrameUnit now loss n u).1.state = .acquiring ∨ (goodFrameUnit now loss n u).1.state = .live := by
  unfold goodFrameUnit
  dsimp only
  repeat' split
  all_goals simp_all

/-- After a good-frame event no hold timer runs, where none ran but in HOLDING (R24, R27). -/
theorem goodFrameUnit_holdAt (now loss n : Nat) {u : PortUnit} (h : u.state ≠ .holding → u.holdAt = none) :
    (goodFrameUnit now loss n u).1.holdAt = none := by
  cases hu : u.state with
  | silent =>
    obtain ⟨-, hkept, -⟩ := goodFrameUnit_first now loss n (.inl hu)
    exact hkept.trans (h (by simp [hu]))
  | released =>
    obtain ⟨-, hkept, -⟩ := goodFrameUnit_first now loss n (.inr hu)
    exact hkept.trans (h (by simp [hu]))
  | acquiring =>
    obtain ⟨-, hkept, -⟩ := goodFrameUnit_acquiring now loss n hu
    exact hkept.trans (h (by simp [hu]))
  | live =>
    obtain ⟨-, hkept, -⟩ := goodFrameUnit_stays now loss n hu
    exact hkept.trans (h (by simp [hu]))
  | holding =>
    obtain ⟨-, hstopped, -⟩ := goodFrameUnit_holding now loss n hu
    exact hstopped

/-- A good-frame event keeps a port sound, whatever slots its frame wrote (R25 to R27). -/
theorem goodFrameUnit_sound (now loss n : Nat) {u : PortUnit} (h : u.Sound) (slots : Vector Slot Config.channels)
    (sequence : Byte) :
    (goodFrameUnit now loss n { u with slots := slots, lastSequence := sequence }).1.Sound := by
  obtain ⟨-, -, hloss⟩ := goodFrameUnit_rest now loss n { u with slots := slots, lastSequence := sequence }
  exact (PortUnit.sound_acquiring_or_live (goodFrameUnit_state _ _ _ _)).mpr
    ⟨by rw [hloss]; rfl, goodFrameUnit_holdAt _ _ _ h.holdAt⟩

/-! ## Both port units -/

theorem State.portsSound_iff (s : State) : s.PortsSound ↔ ∀ p, (s.ports.get p).Sound :=
  ⟨fun h p => by cases p; exacts [h.1, h.2], fun h => ⟨h .a, h .b⟩⟩

/-- Between two states the port units stay sound. -/
def KeepsPorts (s t : State) : Prop := s.PortsSound → t.PortsSound

theorem KeepsPorts.refl (s : State) : KeepsPorts s s := id

theorem KeepsPorts.trans {s t u : State} (h : KeepsPorts s t) (k : KeepsPorts t u) : KeepsPorts s u := k ∘ h

theorem KeepsPorts.of_same {s t : State} (h : t.ports = s.ports) : KeepsPorts s t := by
  unfold KeepsPorts State.PortsSound; rw [h]; exact id

/-- An operation on a state with the same port units. -/
theorem KeepsPorts.after {s t u : State} (k : KeepsPorts t u) (h : t.ports = s.ports) : KeepsPorts s u :=
  (KeepsPorts.of_same h).trans k

theorem Linked.keepsPorts {s t : State} (h : Linked s t) : KeepsPorts s t := .of_same h.ports

theorem Noticed.keepsPorts {s t : State} (h : Noticed s t) : KeepsPorts s t := .of_same h.ports

/-- A port unit that is sound if the former one was. -/
theorem setPort_keepsPorts {p : Port} {v : PortUnit} {s : State} (h : (s.ports.get p).Sound → v.Sound) :
    KeepsPorts s (s.setPort p v) := by
  intro hs
  rw [State.portsSound_iff] at hs ⊢
  intro q
  rw [setPort_ports, PerPort.get_set]
  split
  · exact h (hs p)
  · exact hs q

theorem latch_keepsPorts (k : Condition) (s : State) : KeepsPorts s (latch k s) := (latch_noticed k s).keepsPorts

theorem resolve_keepsPorts (sel : Fin Config.channels → Bool) (s : State) : KeepsPorts s (resolve sel s) :=
  (resolve_noticed sel s).keepsPorts.after rfl

/-! ## Receivers and ports -/

/-- A bad frame touches the acquire count in ACQUIRING only (R23). -/
theorem badFrame_keepsPorts (p : Port) (s : State) : KeepsPorts s (badFrame p s) := by
  unfold badFrame
  dsimp only
  split
  · rename_i hu
    exact setPort_keepsPorts fun h => h.clearCount hu
  all_goals exact .refl s

theorem receiveErrorOp_keepsPorts (r : Receiver) (e : ErrorKind) (s : State) : KeepsPorts s (receiveErrorOp r e s) := by
  have h : KeepsPorts s (latch .frameError (s.setRx r { (s.rx.get r).settled with lastError := some e })) :=
    (latch_keepsPorts _ _).after rfl
  cases r with
  | aRx => exact h.trans (badFrame_keepsPorts .a _)
  | bRx => exact h.trans (badFrame_keepsPorts .b _)
  | dReturnRx => exact h

theorem errorAtSample_keepsPorts (r : Receiver) (e : DetectedError) (s : State) : KeepsPorts s (errorAtSample r e s) :=
  (receiveErrorOp_keepsPorts _ _ _).after rfl

theorem settle_keepsPorts (r : Receiver) (s : State) : KeepsPorts s (settle r s) := .of_same rfl

theorem acceptFrame_keepsPorts (p : Port) (f : LevelFrame) (s : State) : KeepsPorts s (acceptFrame p f s) := by
  obtain ⟨hports, -⟩ := acceptFrame_facts p f s
  exact (setPort_keepsPorts fun h => goodFrameUnit_sound _ _ _ h _ _).trans (.of_same hports)

theorem onLevelA_keepsPorts (f : LevelFrame) (s : State) : KeepsPorts s (onLevelA f s) := by
  unfold onLevelA levelAtA
  repeat' split
  · exact errorAtSample_keepsPorts _ _ s
  · exact (settle_keepsPorts _ s).trans (acceptFrame_keepsPorts _ _ _)
  · exact (settle_keepsPorts _ s).trans (latch_keepsPorts _ _)
  · exact (settle_keepsPorts _ s).trans (forwardPath_linked _ _).keepsPorts

theorem onLevelB_keepsPorts (f : LevelFrame) (s : State) : KeepsPorts s (onLevelB f s) := by
  unfold onLevelB levelAtB
  repeat' split
  · exact errorAtSample_keepsPorts _ _ s
  · exact (settle_keepsPorts _ s).trans (acceptFrame_keepsPorts _ _ _)
  · exact settle_keepsPorts _ s

/-! ## Requests -/

/-- Carrying a command out keeps the port units sound. -/
def CarryKeepsPorts (carry : State → Carried) : Prop := ∀ s, KeepsPorts s (carry s).state

theorem addressed_keepsPorts {carry : State → Carried} (hc : CarryKeepsPorts carry) (h : RequestHeader) (code : Byte)
    (s : State) : KeepsPorts s (addressed h code carry s) := by
  unfold addressed
  repeat' split
  · exact (joinQueue_linked _ _ _).keepsPorts.after rfl
  · exact latch_keepsPorts _ s
  · exact (hc s).trans (finishRequest_linked _ _ _).keepsPorts
  · exact latch_keepsPorts _ s

theorem broadcast_keepsPorts {carry : State → Carried} (hc : CarryKeepsPorts carry) (form : BroadcastForm)
    (h : RequestHeader) (code : Byte) (args : List Byte) (s : State) :
    KeepsPorts s (broadcast form h code args carry s) := by
  have hon : ∀ s, KeepsPorts s (handOn h code args s) := fun s => (handOn_linked h code args s).keepsPorts
  have hcarried : ∀ s, KeepsPorts s (carryBroadcast carry s) :=
    fun s => (hc s).trans (carryBroadcast_latches carry s).1.keepsPorts
  cases form with
  | ignored => exact hon s
  | restarts => exact (hcarried s).trans (hon _)
  | acts =>
    unfold broadcast broadcastActing State.choose
    dsimp only
    repeat' split
    · exact ((hcarried _).trans (hon _)).after rfl
    · exact ((hon _).trans (hcarried _)).after rfl
    · exact (hcarried s).trans (hon _)

theorem onRequest_keepsPorts {carry : State → Carried} (hc : CarryKeepsPorts carry) (form : BroadcastForm)
    (h : RequestHeader) (code : Byte) (args : List Byte) (s : State) :
    KeepsPorts s (onRequest form h code args carry s) := by
  unfold onRequest takeRequest
  repeat' split
  · exact errorAtSample_keepsPorts _ _ s
  · exact (settle_keepsPorts _ s).trans (addressed_keepsPorts hc _ _ _)
  · exact (settle_keepsPorts _ s).trans (broadcast_keepsPorts hc _ _ _ _ _)
  · exact (settle_keepsPorts _ s).trans (handOn_linked _ _ _ _).keepsPorts

theorem guardReserved_keepsPorts {carry : State → Carried} (hc : CarryKeepsPorts carry) (h : RequestHeader) :
    CarryKeepsPorts (guardReserved h carry) := by
  intro s; unfold guardReserved; split
  · exact hc s
  · exact .refl s

/-- A warm restart makes both ports SILENT (R37). -/
theorem carryRestart_keepsPorts : CarryKeepsPorts carryRestart :=
  fun s _ => ⟨s.ports.a.silenced_sound, s.ports.b.silenced_sound⟩

/-! The commands other than RESTART leave the port units as they are. -/

theorem carryForce_ports (first count : BitVec 16) (level : Level) (profile : Byte) (s : State) :
    (carryForce first count level profile s).state.ports = s.ports := by
  unfold carryForce; repeat' split
  all_goals rfl

theorem carryRelease_ports (first count : BitVec 16) (s : State) :
    (carryRelease first count s).state.ports = s.ports := by
  unfold carryRelease; split <;> rfl

theorem carrySaveScene_ports (scene : Byte) (s : State) : (carrySaveScene scene s).state.ports = s.ports := by
  unfold carrySaveScene; split <;> rfl

theorem carryOpen_ports (o : SessionOwner) (s : State) : (carryOpen o s).state.ports = s.ports := by
  unfold carryOpen; repeat' split
  all_goals rfl

theorem carryWrite_ports (o : SessionOwner) (table : Byte) (index : BitVec 16) (count : Byte) (entries : List Byte)
    (s : State) : (carryWrite o table index count entries s).state.ports = s.ports := by
  have hwrite : ∀ t start es, (writeCarried o t start es s).state.ports = s.ports := by
    intro t start es; cases t <;> rfl
  unfold carryWrite; repeat' split
  any_goals rfl
  exact hwrite _ _ _

theorem carryCommit_ports (o : SessionOwner) (expected : Crc32) (s : State) :
    (carryCommit o expected s).state.ports = s.ports := by
  unfold carryCommit; split <;> rfl

theorem carryAbort_ports (o : SessionOwner) (s : State) : (carryAbort o s).state.ports = s.ports := by
  unfold carryAbort; repeat' split
  all_goals rfl

/-- A completing frame, whatever command it is (R13). -/
theorem runFrameCommand_keepsPorts (i : Instr) (s : State) : KeepsPorts s (runFrameCommand i s) := by
  have request : ∀ {carry : State → Carried}, CarryKeepsPorts carry → ∀ form h code args,
      KeepsPorts s (onRequest form h code args (guardReserved h carry) s) :=
    fun hc form h code args => onRequest_keepsPorts (guardReserved_keepsPorts hc h) form h code args s
  have same : ∀ {carry : State → Carried}, (∀ s, (carry s).state.ports = s.ports) → CarryKeepsPorts carry :=
    fun hc s => .of_same (hc s)
  cases i <;> simp only [runFrameCommand]
  case levelFrameA f => exact onLevelA_keepsPorts f s
  case levelFrameB f => exact onLevelB_keepsPorts f s
  case forwardFrame f => exact (settle_keepsPorts _ s).trans (forwardPath_linked _ _).keepsPorts
  case relayFrame f => exact (settle_keepsPorts _ s).trans (relayPath_noticed _ _).keepsPorts
  case bFrameDiscarded f => exact settle_keepsPorts _ s
  case requestNotTaken h code args => exact (settle_keepsPorts _ s).trans (handOn_linked _ _ _ _).keepsPorts
  case badCommand h code args => exact onRequest_keepsPorts (fun s => .refl s) _ _ _ _ _
  case identify h extra => exact request (same fun _ => rfl) _ _ _ _
  case readStatus h extra => exact request (same fun _ => rfl) _ _ _ _
  case readChannels h f c e => exact request (same fun s => by rw [carryReadChannels_state]) _ _ _ _
  case readInputs h p f c e => exact request (same fun s => by rw [carryReadInputs_state]) _ _ _ _
  case readTable h b t i c e => exact request (same fun s => by rw [carryReadTable_state]) _ _ _ _
  case openSession h t e => exact request (same (carryOpen_ports _)) _ _ _ _
  case writeTable h t tb i c e => exact request (same (carryWrite_ports _ _ _ _ _)) _ _ _ _
  case commit h t x e => exact request (same (carryCommit_ports _ _)) _ _ _ _
  case abortSession h t e => exact request (same (carryAbort_ports _)) _ _ _ _
  case force h f c l p e => exact request (same (carryForce_ports _ _ _ _)) _ _ _ _
  case release h f c e => exact request (same (carryRelease_ports _ _)) _ _ _ _
  case saveScene h sc e => exact request (same (carrySaveScene_ports _)) _ _ _ _
  case ackConditions h k e => exact request (same fun _ => rfl) _ _ _ _
  case restart h e => exact request carryRestart_keepsPorts _ _ _ _
  all_goals exact .refl s

theorem completeFrame_keepsPorts (r : Receiver) (f : Frame) (s : State) : KeepsPorts s (completeFrame r f s) := by
  unfold completeFrame; split
  · exact errorAtSample_keepsPorts _ _ s
  · exact runFrameCommand_keepsPorts _ s

/-! ## The ports' own events -/

theorem stateReport_keepsPorts (p : Port) (s : State) : KeepsPorts s (stateReport p s) := resolve_keepsPorts _ s

/-- A loss expiry stops the loss timer and releases the port or starts its hold timer (R28, R29). -/
theorem lossEvent_keepsPorts (p : Port) (n : Nat) (s : State) : KeepsPorts s (lossEvent p n s) := by
  unfold lossEvent
  dsimp only
  split
  · exact (setPort_keepsPorts fun _ => PortUnit.released_sound _).trans (stateReport_keepsPorts _ _)
  · split
    · exact (((setPort_keepsPorts fun _ => PortUnit.released_sound _).trans (latch_keepsPorts _ _)).trans
        (latch_keepsPorts _ _)).trans (stateReport_keepsPorts _ _)
    · exact ((setPort_keepsPorts fun _ => (PortUnit.sound_holding rfl).mpr ⟨rfl, rfl⟩).trans
        (latch_keepsPorts _ _)).trans (stateReport_keepsPorts _ _)
  all_goals
    rename_i hu
    exact setPort_keepsPorts fun h => h.stopLoss (by simp [hu]) (by simp [hu])

/-- A hold expiry releases the port (R30). -/
theorem holdEvent_keepsPorts (p : Port) (s : State) : KeepsPorts s (holdEvent p s) := by
  unfold holdEvent
  dsimp only
  split
  · exact ((setPort_keepsPorts fun _ => PortUnit.released_sound _).trans (latch_keepsPorts _ _)).trans
      (stateReport_keepsPorts _ _)
  all_goals
    rename_i hu
    exact setPort_keepsPorts fun h => h.stopHold (by simp [hu])

theorem lossExpiryOp_keepsPorts (p : Port) (s : State) : KeepsPorts s (lossExpiryOp p s) := by
  unfold lossExpiryOp; split
  · exact .refl s
  · exact (lossEvent_keepsPorts p _ (s.reach _)).after rfl

theorem holdExpiryOp_keepsPorts (p : Port) (s : State) : KeepsPorts s (holdExpiryOp p s) := by
  unfold holdExpiryOp; split
  · exact .refl s
  · exact (holdEvent_keepsPorts p (s.reach _)).after rfl

/-! ## The other timers, the session and the output generator -/

theorem sessionExpiryOp_keepsPorts (s : State) : KeepsPorts s (sessionExpiryOp s) := by
  unfold sessionExpiryOp; split
  · exact (latch_keepsPorts _ _).after rfl
  all_goals exact .refl s

theorem verificationCompleteOp_keepsPorts (s : State) : KeepsPorts s (verificationCompleteOp s) := by
  unfold verificationCompleteOp
  dsimp only
  repeat' split
  · exact .of_same rfl
  · exact (latch_keepsPorts _ _).after rfl
  all_goals exact .refl s

theorem copyCompleteOp_keepsPorts (s : State) : KeepsPorts s (copyCompleteOp s) := by
  unfold copyCompleteOp; split <;> exact .of_same rfl

theorem fadeTickOp_keepsPorts (s : State) : KeepsPorts s (fadeTickOp s) := by
  unfold fadeTickOp; dsimp only; repeat' split
  all_goals exact .of_same rfl

/-- A changeover makes the ports SILENT whose accepted stream it alters (R33). -/
theorem changeover_keepsPorts (k : Crc32) (s : State) : KeepsPorts s (changeover k s) := by
  obtain ⟨hports, -⟩ := changeover_facts k s
  intro hs
  rw [State.portsSound_iff] at hs ⊢
  intro p
  rw [hports p]
  split
  · exact hs p
  · exact PortUnit.silenced_sound _

theorem takeSnapshot_keepsPorts (s : State) : KeepsPorts s (takeSnapshot s) := by
  have h : KeepsPorts s (serveD { s with output := .waiting s.outputSnapshot, nextSequence := s.nextSequence + 1 }) :=
    (serveD_linked _).keepsPorts.after rfl
  unfold takeSnapshot toldOfSnapshot
  split
  · exact h.trans (changeover_keepsPorts _ _)
  all_goals exact h

theorem refreshExpiryOp_keepsPorts (s : State) : KeepsPorts s (refreshExpiryOp s) := by
  unfold refreshExpiryOp
  split
  · exact .refl s
  · have restarted : ∀ n t, KeepsPorts t (restartRefresh n t) := fun _ _ => .of_same rfl
    dsimp only
    split
    · exact ((takeSnapshot_keepsPorts (s.reach _)).after rfl).trans (restarted _ _)
    all_goals exact .of_same rfl

/-! ## Transmitters, characters and idle -/

theorem transmitCompleteOp_keepsPorts (x : Transmitter) (s : State) : KeepsPorts s (transmitCompleteOp x s) := by
  have hentry : ∀ p s, KeepsPorts s (entryCompleted p s) := by
    intro p s; unfold entryCompleted; split
    · exact (drainPending_noticed _).keepsPorts.after rfl
    · exact .refl s
  have houtput : ∀ s, KeepsPorts s (outputCompleted s) := by
    intro s; unfold outputCompleted; split <;> exact .of_same rfl
  unfold transmitCompleteOp
  split
  · cases x
    · exact (houtput _).after rfl
    · exact (hentry .a _).after rfl
    · exact (hentry .b _).after rfl
  all_goals exact .refl s

theorem gapEndOp_keepsPorts (x : Transmitter) (s : State) : KeepsPorts s (gapEndOp x s) := by
  unfold gapEndOp; split
  · exact (serve_linked _ _).keepsPorts.after rfl
  all_goals exact .refl s

theorem interFrameIdleOp_keepsPorts (r : Receiver) (s : State) : KeepsPorts s (interFrameIdleOp r s) := by
  unfold interFrameIdleOp; dsimp only; split <;> exact .of_same rfl

theorem truncatedOp_keepsPorts (r : Receiver) (s : State) : KeepsPorts s (truncatedOp r s) := by
  unfold truncatedOp; dsimp only; split
  · exact (receiveErrorOp_keepsPorts _ _ _).after rfl
  · exact .refl s

theorem goodCharacterOp_keepsPorts (r : Receiver) (b : Byte) (s : State) : KeepsPorts s (goodCharacterOp r b s) := by
  unfold goodCharacterOp receiveByte
  dsimp only
  repeat' split
  all_goals first
    | exact errorAtSample_keepsPorts _ _ s
    | exact completeFrame_keepsPorts _ _ s
    | exact .of_same rfl

theorem badCharacterOp_keepsPorts (r : Receiver) (s : State) : KeepsPorts s (badCharacterOp r s) := by
  unfold badCharacterOp
  dsimp only
  split
  · exact .of_same rfl
  · exact .of_same rfl
  · exact errorAtSample_keepsPorts _ _ s

theorem characterOp_keepsPorts (r : Receiver) (w : BitVec 10) (s : State) : KeepsPorts s (characterOp r w s) := by
  have htruncate : ∀ n s, KeepsPorts s (truncateBefore r n s) := by
    intro n s; unfold truncateBefore; repeat' split
    · exact truncatedOp_keepsPorts r s
    all_goals exact .refl s
  have hhunt : ∀ n s, KeepsPorts s (huntBefore r n s) := by
    intro n s; unfold huntBefore; repeat' split
    · exact interFrameIdleOp_keepsPorts r s
    all_goals exact .refl s
  have before : ∀ n m s, KeepsPorts s ((huntBefore r n (truncateBefore r n s)).reach m) :=
    fun n m s => ((htruncate n s).trans (hhunt n _)).trans (.of_same rfl)
  unfold characterOp takeCharacter
  dsimp only
  repeat' split
  · exact .refl s
  · exact .refl s
  · exact (before _ _ s).trans (goodCharacterOp_keepsPorts _ _ _)
  · exact (before _ _ s).trans (badCharacterOp_keepsPorts _ _)

/-! ## Resets and the PAUSE line -/

theorem releaseReset_keepsPorts (straps : BitVec 6) (a b d : Bool) (s : State) :
    KeepsPorts s (releaseReset straps a b d s) := by
  rw [releaseReset_eq]; split
  · exact (latch_keepsPorts _ _).after rfl
  · exact .of_same rfl

theorem execPauseAssert_keepsPorts {s t : State} (h : execPauseAssert s = .next t) : KeepsPorts s t := by
  unfold execPauseAssert at h
  repeat' split at h
  all_goals
    injection h with h
    subst h
  · exact .refl s
  · exact .of_same rfl
  · exact (latch_keepsPorts _ _).after rfl

/-! ## Commands and steps -/

/-- Every command keeps the port units sound. -/
theorem exec_keepsPorts {c : Instr} {s t : State} (h : exec c s = .next t) : KeepsPorts s t := by
  have w : ∀ {f : State → State}, KeepsPorts s (f s) → whenRunning f s = .next t → KeepsPorts s t := by
    intro f hf hh
    obtain rfl | ⟨-, rfl⟩ := whenRunning_cases hh
    · exact .refl _
    · exact hf
  have frame : ∀ i, whenRunning (runFrameCommand i) s = .next t → KeepsPorts s t :=
    fun i => w (runFrameCommand_keepsPorts i s)
  cases c <;> simp only [exec] at h
  case hardReset =>
    obtain rfl : heldInReset s = t := by injection h
    obtain ⟨-, -, -, -, -, -, -, -, hsound, -⟩ := resetIsSound
    exact fun _ => hsound
  case resetRelease x a b d =>
    unfold execResetRelease at h
    split at h
    · obtain rfl : releaseReset x a b d s = t := by injection h
      exact releaseReset_keepsPorts x a b d s
    · obtain rfl : s = t := by injection h
      exact .refl s
  case pauseAssert => exact execPauseAssert_keepsPorts h
  case pauseRelease =>
    obtain rfl : { s with pause := false } = t := by injection h
    exact .of_same rfl
  case fadeTick => exact w (fadeTickOp_keepsPorts s) h
  case refreshExpiry => exact w (refreshExpiryOp_keepsPorts s) h
  case interFrameIdle r => exact w (interFrameIdleOp_keepsPorts r s) h
  case truncated r => exact w (truncatedOp_keepsPorts r s) h
  case receiveError r e =>
    refine w ?_ h; unfold receiveErrorEvent; split
    · exact .refl s
    · exact errorAtSample_keepsPorts _ _ _
  case lineReturnHigh r => refine w ?_ h; unfold lineReturnHighOp; dsimp only; split <;> exact .of_same rfl
  case characterReceived r x => exact w (characterOp_keepsPorts r x s) h
  case lossExpiry p => exact w (lossExpiryOp_keepsPorts p s) h
  case holdExpiry p => exact w (holdExpiryOp_keepsPorts p s) h
  case sessionExpiry => exact w (sessionExpiryOp_keepsPorts s) h
  case verificationComplete => exact w (verificationCompleteOp_keepsPorts s) h
  case copyComplete => exact w (copyCompleteOp_keepsPorts s) h
  case transmitComplete x => exact w (transmitCompleteOp_keepsPorts x s) h
  case gapEnd x => exact w (gapEndOp_keepsPorts x s) h
  case forwardFrame | relayFrame | bFrameDiscarded | requestNotTaken | badCommand =>
    exact w (completeFrame_keepsPorts _ _ s) h
  case levelFrameA f => exact frame (.levelFrameA f) h
  case levelFrameB f => exact frame (.levelFrameB f) h
  case identify h' e => exact frame (.identify h' e) h
  case readStatus h' e => exact frame (.readStatus h' e) h
  case readChannels h' f c e => exact frame (.readChannels h' f c e) h
  case readInputs h' p f c e => exact frame (.readInputs h' p f c e) h
  case readTable h' b t' i c e => exact frame (.readTable h' b t' i c e) h
  case openSession h' t' e => exact frame (.openSession h' t' e) h
  case writeTable h' t' tb i c e => exact frame (.writeTable h' t' tb i c e) h
  case commit h' t' x e => exact frame (.commit h' t' x e) h
  case abortSession h' t' e => exact frame (.abortSession h' t' e) h
  case force h' f c l p e => exact frame (.force h' f c l p e) h
  case release h' f c e => exact frame (.release h' f c e) h
  case saveScene h' sc e => exact frame (.saveScene h' sc e) h
  case ackConditions h' k e => exact frame (.ackConditions h' k e) h
  case restart h' e => exact frame (.restart h' e) h

/-- Settles O57: a port unit changes by the events of its state machine alone, each of which keeps it sound, and no other
operation touches it. -/
theorem portUnitsStaySound : Obligations.PortUnitsStaySound :=
  keptByEveryStep_of_exec (fun _ _ _ _ h => h) fun _ _ _ h he => exec_keepsPorts he h

end Sys2Proof.Machine
end

section
/-! The changeover at an output snapshot (O30). -/

namespace Sys2Proof.Machine

/-! ## The tick within a changeover -/

/-- A fade tick restarts its timer under the active bank, and advances the channels unless PAUSE is asserted (R68 to R71). -/
theorem fadeTickOp_ticks {s : State} {m : Nat} (h : s.tickAt = some m) :
    (fadeTickOp s).choices = s.choices ∧ (fadeTickOp s).tickAt = some (m + s.tickClocks) ∧
      (s.pause = true → (fadeTickOp s).fades = s.fades) ∧
      (s.pause = false → ∀ c : Fin Config.channels, (fadeTickOp s).fades[c] =
        advance s.activeBank.profiles s.targets[c] s.fades[c]) := by
  unfold fadeTickOp
  rw [h]
  cases hp : s.pause with
  | true => exact ⟨by simp [hp], by simp [hp], fun _ => by simp [hp], nofun⟩
  | false =>
    refine ⟨by simp [hp, advanceAll], by simp [hp, advanceAll], nofun, fun _ c => ?_⟩
    simp only [reach_pause, hp, advanceAll, Bool.false_eq_true, if_false, Fin.getElem_fin, Table.getElem_mapFin]
    rfl

/-- A fade tick that is due falls within the changeover or does not, by a free choice (R61, R87; log entry 9). -/
theorem tickWithin_due {s : State} {m : Nat} (h : s.tickAt = some m) (hm : m ≤ s.now) :
    tickWithin s = { s with choices := s.choices + 1 } ∨
      tickWithin s = fadeTickOp { s with choices := s.choices + 1 } := by
  unfold tickWithin State.choose
  rw [h]
  simp only [if_neg (Nat.not_lt.mpr hm)]
  split
  · exact .inl rfl
  · exact .inr rfl

/-- Of what a tick changes, a changeover changes what the tick within it does. -/
theorem changeover_ticks (k : Crc32) (s : State) :
    (changeover k s).choices = (tickWithin (latch .commitDone (exchangeBanks k s))).choices ∧
      (changeover k s).tickAt = (tickWithin (latch .commitDone (exchangeBanks k s))).tickAt ∧
      (changeover k s).fades = (tickWithin (latch .commitDone (exchangeBanks k s))).fades := by
  unfold changeover
  dsimp only
  have hn := resolve_noticed (fun _ => true) (clearOwners (silenceIfAltered s.config .b
    (silenceIfAltered s.config .a (tickWithin (latch .commitDone (exchangeBanks k s))))))
  rw [hn.choices, hn.tickAt, hn.fades, silenceIfAltered_rest, silenceIfAltered_rest s.config .a]
  exact ⟨rfl, rfl, rfl⟩

/-- A changeover before the next tick is due leaves the ticks alone (R87). -/
theorem changeover_notDue (k : Crc32) {s : State} (h : ∀ m, s.tickAt = some m → s.now < m) :
    (changeover k s).fades = s.fades ∧ (changeover k s).tickAt = s.tickAt ∧ (changeover k s).choices = s.choices := by
  have hn := latch_noticed .commitDone (exchangeBanks k s)
  obtain ⟨hchoices, htick, hfades⟩ := changeover_ticks k s
  rw [tickWithin_later (by rw [hn.tickAt, hn.now]; exact h)] at hchoices htick hfades
  exact ⟨hfades.trans hn.fades, htick.trans hn.tickAt, hchoices.trans hn.choices⟩

/-- At a changeover with a tick due, a choice is made, and a tick that falls within finds the old records with the profiles
and the tick period of the new bank (R61, R68, R87). -/
theorem changeover_due (k : Crc32) {s : State} {m : Nat} (h : s.tickAt = some m) (hm : m ≤ s.now) :
    (changeover k s).choices = s.choices + 1 ∧
      (((changeover k s).fades = s.fades ∧ (changeover k s).tickAt = s.tickAt) ∨
       ((changeover k s).tickAt = some (m + s.shadowBank.config.tickPeriod.toNat * Config.tickUnit) ∧
        (s.pause = true → (changeover k s).fades = s.fades) ∧
        (s.pause = false → ∀ c : Fin Config.channels, (changeover k s).fades[c] =
          advance s.shadowBank.profiles s.targets[c] s.fades[c]))) := by
  have hn := latch_noticed .commitDone (exchangeBanks k s)
  obtain ⟨hchoices, htick, hfades⟩ := changeover_ticks k s
  rw [hchoices, htick, hfades]
  generalize latch .commitDone (exchangeBanks k s) = w at *
  have hw : w.tickAt = some m := hn.tickAt.trans h
  have hwchoices : w.choices = s.choices := hn.choices
  have hwfades : w.fades = s.fades := hn.fades
  have hwpause : w.pause = s.pause := hn.pause
  have hwtargets : w.targets = s.targets := hn.targets
  have hwbank : w.activeBank = s.shadowBank := hn.activeBank
  obtain e | e := tickWithin_due hw (hm.trans_eq hn.now.symm)
  · rw [e]
    exact ⟨congrArg (· + 1) hwchoices, .inl ⟨hwfades, hn.tickAt⟩⟩
  · obtain ⟨tchoices, ttick, tpaused, tfades⟩ := fadeTickOp_ticks (s := { w with choices := w.choices + 1 }) hw
    rw [e]
    refine ⟨tchoices.trans (congrArg (· + 1) hwchoices), .inr ⟨ttick.trans ?_, fun hp => ?_, fun hp c => ?_⟩⟩
    · show some (m + w.activeBank.config.tickPeriod.toNat * Config.tickUnit) = _
      rw [hwbank]
    · exact (tpaused (hwpause.trans hp)).trans hwfades
    · refine (tfades (hwpause.trans hp) c).trans ?_
      show advance w.activeBank.profiles w.targets[c] w.fades[c] = _
      rw [hwbank, hwtargets, hwfades]

/-! ## The snapshot -/

/-- The part when its output frame has been offered to D-tx: at this instant, with D-tx and the output frame as they then
are, and the sequence number consumed (R109 to R111). -/
def State.offered (s : State) (instant : Nat) (d : Tx) (out : OutputFrame) : State :=
  { s with now := instant, tx := { s.tx with d := d }, output := out, nextSequence := s.nextSequence + 1 }

/-- The output frame with its levels and their number written out (R109, R199). -/
theorem outputSnapshot_eq {s : State} (h : s.config.outputLength.toNat ≤ 384) :
    s.outputSnapshot = ⟨0x01, [s.config.outputStream, s.nextSequence, 0, 0] ++ bytes16 s.config.outputLength ++
      bytesOfHalves ((s.fades.toList.take s.config.outputLength.toNat).map fun x =>
        BitVec.ofNat 16 (x.position / 256))⟩ := by
  have hlength : s.outputLevels.length = s.config.outputLength.toNat := by
    simp only [State.outputLevels, List.length_map, List.length_take, Vector.length_toList, Config.channels]
    omega
  unfold State.outputSnapshot levelPayload
  rw [hlength, BitVec.ofNat_toNat, BitVec.setWidth_eq]
  rfl

theorem serveD_of_not_free {s : State} (h : s.tx.d ≠ .free) : serveD s = s := by
  obtain ⟨f, hd, -⟩ | ⟨f, r, hd, -⟩ | ⟨-, e⟩ := serveD_cases s
  · exact absurd hd h
  · exact absurd hd h
  · exact e

/-- The output frame is offered to D-tx, which takes it if it is FREE (R109, R112). -/
theorem snapshot_offered (n : Nat) (s : State) :
    ∃ d out, serveD { s.reach n with output := .waiting (s.reach n).outputSnapshot, nextSequence := s.nextSequence + 1 } =
        s.offered (max s.now n) d out ∧
      (s.tx.d = .free → out = .sending s.outputSnapshot ∧
        d = .sending s.outputSnapshot (max s.now n + frameClocks s.outputSnapshot)) ∧
      (s.tx.d ≠ .free → out = .waiting s.outputSnapshot ∧ d = s.tx.d) := by
  by_cases hd : s.tx.d = .free
  · exact ⟨_, _, serveD_waiting hd rfl, fun _ => ⟨rfl, rfl⟩, fun h => absurd hd h⟩
  · exact ⟨_, _, serveD_of_not_free hd, fun h => absurd h hd, fun _ => ⟨rfl, rfl⟩⟩

/-- A snapshot with a session ARMED is followed by the changeover (R107, R111, R171). -/
theorem exec_refreshExpiry_armed {n : Nat} {s : State} {o : SessionOwner} {k : Crc32} (hs : s.inReset = false)
    (hn : s.refreshAt = some n) (ho : s.output = .empty) (hk : s.session = .armed o k) {u : State}
    (hu : serveD { s.reach n with output := .waiting (s.reach n).outputSnapshot, nextSequence := s.nextSequence + 1 } = u)
    (hsession : u.session = s.session) :
    exec .refreshExpiry s = .next (restartRefresh n (changeover k u)) := by
  refine (whenRunning_next hs).trans ?_
  have htaken : takeSnapshot (s.reach n) = changeover k u := by
    unfold takeSnapshot
    rw [reach_nextSequence, hu, toldOfSnapshot, hsession, hk]
  unfold refreshExpiryOp
  simp only [hn, reach_output, ho, htaken]

/-- Settles O30: the snapshot leaves the part but for D-tx and its frame as it was, and the changeover follows on it. -/
theorem snapshotMakesTheChangeover : Obligations.SnapshotMakesTheChangeover := by
  intro n s o k hs hn ho hk
  obtain ⟨d, out, hu, hfree, hbusy⟩ := snapshot_offered n s
  have hexec := exec_refreshExpiry_armed hs hn ho hk hu rfl
  have hwaits : s.NothingWaitsForFree → (s.offered (max s.now n) d out).NothingWaitsForFree := by
    intro h
    refine ⟨fun hf => ?_, h.2⟩
    rw [← hu] at hf ⊢
    exact serveD_leaves_nothing _ hf
  have hout : out ≠ .empty := by
    by_cases hd : s.tx.d = .free
    · rw [(hfree hd).1]; nofun
    · rw [(hbusy hd).1]; nofun
  obtain ⟨hports, htargets, hlatches, halert, hserves, hnoticed⟩ := changeover_facts k (s.offered (max s.now n) d out)
  have hnotDue := changeover_notDue k (s := s.offered (max s.now n) d out)
  have hdue := fun m => changeover_due k (s := s.offered (max s.now n) d out) (m := m)
  refine ⟨_, hexec, ?_⟩
  generalize changeover k (s.offered (max s.now n) d out) = t at *
  have hout' : t.output = out := hnoticed.output
  have htx : t.tx.d = d := hnoticed.txD
  have hbank : t.activeBank = s.shadowBank := hnoticed.activeBank
  have hl : LatchesThenFallback [.commitDone] { s with active := s.active.other, alert := t.alert } t :=
    hlatches.congr rfl rfl rfl rfl
  refine ⟨hnoticed.now, hnoticed.active, hnoticed.banks, hnoticed.checksum, hnoticed.outcome, hnoticed.session,
    hnoticed.nextSequence, fun h => hout (hout'.symm.trans h), fun f hlen hf => ?_, hnotDue, hdue,
    ?_, fun p => ?_, fun p hp => ?_, htargets, fun j => ?_, hl, halert, ?_, ?_⟩
  · rw [← outputSnapshot_eq hlen] at hf
    subst hf
    show (_ → t.output = _ ∧ t.tx.d = _) ∧ (_ → t.output = _ ∧ t.tx.d = _)
    rw [hout', htx]
    exact ⟨hfree, hbusy⟩
  · show some (n + t.activeBank.config.refreshPeriod.toNat * Config.msClocks) = _
    rw [hbank]
  · rw [show (restartRefresh n t).ports = t.ports from rfl]
    by_cases hp : s.config.accepted.get p = s.shadowBank.config.accepted.get p
    · rw [if_pos hp]; exact (hports p).trans (if_pos hp)
    · rw [if_neg hp, (hports p).trans (if_neg hp)]; rfl
  · rw [show (restartRefresh n t).ports = t.ports from rfl, (hports p).trans (if_neg hp)]
    exact invalidate_invalidated _
  · rw [← List.mem_singleton (a := j)]; exact hl.hasKind j
  · exact hserves.congr rfl rfl rfl rfl rfl hwaits rfl rfl rfl rfl rfl rfl
  · unfold Noticed at hnoticed
    rw [hnoticed]
    rfl

end Sys2Proof.Machine
end

section
/-! Commands as compositions of a few operations on ports, channels and scenes: what each of these keeps, every command
keeps. For O58 and O60. -/

namespace Sys2Proof.Machine

/-! ## The operations that reach the ports, the channels and the program -/

/-- The states agree on the ports, the channels, the scenes and the program in force. -/
def Quiet (s t : State) : Prop :=
  (t.ports, t.targets, t.parks, t.scenes, t.active, t.activeBank, t.checksum) =
    (s.ports, s.targets, s.parks, s.scenes, s.active, s.activeBank, s.checksum)

theorem Linked.quiet {s t : State} (h : Linked s t) : Quiet s t := by unfold Linked at h; rw [h]; rfl

theorem Noticed.quiet {s t : State} (h : Noticed s t) : Quiet s t := h.linked.quiet

theorem latch_quiet (k : Condition) (s : State) : Quiet s (latch k s) := (latch_noticed k s).quiet

/-- A relation between two states that holds over every operation of which the commands, but for HARD_RESET and the
changeover, are made. -/
structure KeptByBlocks (R : State → State → Prop) : Prop where
  trans : ∀ {s t u}, R s t → R t u → R s u
  quiet : ∀ {s t}, Quiet s t → R s t
  port : ∀ {p s v}, v.state = (s.ports.get p).state → v.slots = (s.ports.get p).slots → R s (s.setPort p v)
  report : ∀ {p s v w}, Noticed (s.setPort p v) w → R s (stateReport p w)
  accept : ∀ p f s, R s (acceptFrame p f s)
  park : ∀ first count r s, R s (parkRange first count r s).state
  scenes : ∀ {written s x},
    (∀ (f : Fin 4) (c : Fin Config.channels), written f c = false → x[f][c] = s.scenes[f][c]) →
    R s (sceneWritten written { s with scenes := x })
  restart : ∀ s, R s (warmRestart s)

/-! ## Entries of the scene store -/

/-- The entry of the scene store with a number (R99). -/
theorem sceneEntry_set {v : Vector (Vector Level Config.channels) 4} {i : Nat} (hi : i / 384 < 4)
    (hc : i % 384 < Config.channels) (e : Level) (f : Fin 4) (c : Fin Config.channels) :
    (v.set (i / 384) (v[i / 384].set (i % 384) e))[f][c] = if 384 * f.val + c.val = i then e else v[f][c] := by
  have hlt : c.val < 384 := c.isLt
  simp only [Fin.getElem_fin, Vector.getElem_set]
  by_cases hf : i / 384 = f.val
  · simp only [hf, if_true, Vector.getElem_set]
    exact if_congr (by omega) rfl rfl
  · simp only [hf, if_false, if_neg (show ¬ 384 * f.val + c.val = i by omega)]

/-- One entry written before the others (R99, R159). -/
theorem writeScenes_cons (start : Nat) (e : Level) (es : List Level) (v : Vector (Vector Level Config.channels) 4) :
    ∃ w, writeScenes start (e :: es) v = writeScenes (start + 1) es w ∧
      ∀ (f : Fin 4) (c : Fin Config.channels), w[f][c] = if 384 * f.val + c.val = start % 1536 then e else v[f][c] :=
  ⟨_, rfl, sceneEntry_set _ _ e⟩

/-- An entry that no write names stands (R99, R159). -/
theorem writeScenes_other {start : Nat} {es : List Level} {v : Vector (Vector Level Config.channels) 4} {f : Fin 4}
    {c : Fin Config.channels} (h : ∀ k, k < es.length → 384 * f.val + c.val ≠ (start + k) % 1536) :
    (writeScenes start es v)[f][c] = v[f][c] := by
  induction es generalizing start v with
  | nil => rfl
  | cons e es ih =>
    obtain ⟨w, hw, hentry⟩ := writeScenes_cons start e es v
    rw [hw, ih fun k hk => by rw [Nat.add_right_comm]; exact h (k + 1) (by simpa using hk), hentry,
      if_neg (show _ ≠ start % 1536 from h 0 (by simp))]

/-- An entry that is written holds its level, where no two writes name one entry (R99, R159). -/
theorem writeScenes_at {start k : Nat} {es : List Level} {v : Vector (Vector Level Config.channels) 4} {f : Fin 4}
    {c : Fin Config.channels} {e : Level} (hl : es.length ≤ 1536) (hk : es[k]? = some e)
    (h : 384 * f.val + c.val = (start + k) % 1536) : (writeScenes start es v)[f][c] = e := by
  induction es generalizing start v k with
  | nil => simp at hk
  | cons a es ih =>
    rw [List.length_cons] at hl
    obtain ⟨w, hw, hentry⟩ := writeScenes_cons start a es v
    rw [hw]
    cases k with
    | zero =>
      obtain rfl : a = e := by simpa using hk
      rw [writeScenes_other fun j hj => by omega, hentry, if_pos (show _ = start % 1536 from h)]
    | succ k => exact ih (by omega) (by simpa using hk) (by omega)

/-- Whether an entry of SCENES is among those written (R99, R159). -/
theorem sceneEntryWritten_iff {start count : Nat} {f : Fin 4} {c : Fin Config.channels} :
    sceneEntryWritten start count f c = true ↔ ∃ k, k < count ∧ 384 * f.val + c.val = (start + k) % 1536 := by
  have hlt : c.val < 384 := c.isLt
  rw [sceneEntryWritten, decide_eq_true_eq]
  refine ⟨fun h => ⟨_, h, by omega⟩, ?_⟩
  rintro ⟨k, hk, he⟩
  have : (384 * f.val + c.val + 1536 - start % 1536) % 1536 = k % 1536 := by omega
  exact this ▸ (Nat.mod_le k 1536).trans_lt hk

/-- An entry that is not written stands (R99, R159). -/
theorem writeScenes_unwritten {start : Nat} {es : List Level} {v : Vector (Vector Level Config.channels) 4} {f : Fin 4}
    {c : Fin Config.channels} (h : sceneEntryWritten start es.length f c = false) :
    (writeScenes start es v)[f][c] = v[f][c] :=
  writeScenes_other fun k hk he => Bool.false_ne_true (h.symm.trans (sceneEntryWritten_iff.mpr ⟨k, hk, he⟩))

/-! ## Commands -/

/-- Carrying a command out is one of the operations, or quiet. -/
def CarryKeeps (R : State → State → Prop) (carry : State → Carried) : Prop := ∀ s, R s (carry s).state

section

variable {R : State → State → Prop} (hR : KeptByBlocks R)

include hR

theorem KeptByBlocks.refl (s : State) : R s s := hR.quiet rfl

/-- An operation on a state that differs in nothing of the ports, the channels and the program. -/
theorem KeptByBlocks.after {s t u : State} (k : R t u) (h : Quiet s t) : R s u := hR.trans (hR.quiet h) k

/-! ### Receivers and ports -/

theorem KeptByBlocks.receiveErrorOp (r : Receiver) (e : ErrorKind) (s : State) : R s (receiveErrorOp r e s) := by
  have bad : ∀ p s, R s (badFrame p s) := by
    intro p s; unfold badFrame; dsimp only; split
    · exact hR.port rfl rfl
    all_goals exact hR.refl s
  have error : Quiet s (latch .frameError (s.setRx r { (s.rx.get r).settled with lastError := some e })) :=
    latch_quiet .frameError (s.setRx r _)
  cases r with
  | aRx => exact hR.after (bad .a _) error
  | bRx => exact hR.after (bad .b _) error
  | dReturnRx => exact hR.quiet error

theorem KeptByBlocks.errorAtSample (r : Receiver) (e : DetectedError) (s : State) : R s (errorAtSample r e s) :=
  hR.after (hR.receiveErrorOp _ _ _) rfl

theorem KeptByBlocks.onLevelA (f : LevelFrame) (s : State) : R s (onLevelA f s) := by
  unfold Machine.onLevelA levelAtA
  repeat' split
  · exact hR.errorAtSample _ _ s
  · exact hR.after (hR.accept _ _ _) (settle_linked _ s).quiet
  · exact hR.after (hR.quiet (latch_quiet _ _)) (settle_linked _ s).quiet
  · exact hR.after (hR.quiet (forwardPath_linked _ _).quiet) (settle_linked _ s).quiet

theorem KeptByBlocks.onLevelB (f : LevelFrame) (s : State) : R s (onLevelB f s) := by
  unfold Machine.onLevelB levelAtB
  repeat' split
  · exact hR.errorAtSample _ _ s
  · exact hR.after (hR.accept _ _ _) (settle_linked _ s).quiet
  · exact hR.quiet (settle_linked _ s).quiet

/-- A loss expiry stops a timer, or changes the port's state and reports it (R28, R29). -/
theorem KeptByBlocks.lossExpiryOp (p : Port) (s : State) : R s (lossExpiryOp p s) := by
  have event : ∀ n s, R s (lossEvent p n s) := by
    intro n s
    unfold lossEvent
    dsimp only
    split
    · exact hR.report (.refl _)
    · split
      · exact hR.report ((latch_noticed _ _).trans (latch_noticed _ _))
      · exact hR.report (latch_noticed _ _)
    all_goals exact hR.port rfl rfl
  unfold Machine.lossExpiryOp
  split
  · exact hR.refl s
  · exact hR.after (event _ (s.reach _)) rfl

/-- A hold expiry stops a timer, or releases the port and reports it (R30). -/
theorem KeptByBlocks.holdExpiryOp (p : Port) (s : State) : R s (holdExpiryOp p s) := by
  have event : ∀ s, R s (holdEvent p s) := by
    intro s
    unfold holdEvent
    dsimp only
    split
    · exact hR.report (latch_noticed _ _)
    all_goals exact hR.port rfl rfl
  unfold Machine.holdExpiryOp
  split
  · exact hR.refl s
  · exact hR.after (event (s.reach _)) rfl

/-! ### Requests -/

theorem KeptByBlocks.addressed {carry : State → Carried} (hc : CarryKeeps R carry) (h : RequestHeader) (code : Byte)
    (s : State) : R s (addressed h code carry s) := by
  unfold Machine.addressed
  repeat' split
  · exact hR.after (hR.quiet (joinQueue_linked _ _ _).quiet) rfl
  · exact hR.quiet (latch_quiet _ s)
  · exact hR.trans (hc s) (hR.quiet (finishRequest_linked _ _ _).quiet)
  · exact hR.quiet (latch_quiet _ s)

theorem KeptByBlocks.broadcast {carry : State → Carried} (hc : CarryKeeps R carry) (form : BroadcastForm)
    (h : RequestHeader) (code : Byte) (args : List Byte) (s : State) : R s (broadcast form h code args carry s) := by
  have on : ∀ s, R s (handOn h code args s) := fun s => hR.quiet (handOn_linked h code args s).quiet
  have carried : ∀ s, R s (carryBroadcast carry s) := fun s => hR.trans (hc s) (hR.quiet (latchAll_noticed _ _).quiet)
  cases form with
  | ignored => exact on s
  | restarts => exact hR.trans (carried s) (on _)
  | acts =>
    unfold Machine.broadcast broadcastActing State.choose
    dsimp only
    repeat' split
    · exact hR.after (hR.trans (carried _) (on _)) rfl
    · exact hR.after (hR.trans (on _) (carried _)) rfl
    · exact hR.trans (carried s) (on _)

theorem KeptByBlocks.onRequest {carry : State → Carried} (hc : CarryKeeps R carry) (form : BroadcastForm)
    (h : RequestHeader) (code : Byte) (args : List Byte) (s : State) : R s (onRequest form h code args carry s) := by
  unfold Machine.onRequest takeRequest
  repeat' split
  · exact hR.errorAtSample _ _ s
  · exact hR.after (hR.addressed hc _ _ _) (settle_linked _ s).quiet
  · exact hR.after (hR.broadcast hc _ _ _ _ _) (settle_linked _ s).quiet
  · exact hR.after (hR.quiet (handOn_linked _ _ _ _).quiet) (settle_linked _ s).quiet

theorem KeptByBlocks.guardReserved {carry : State → Carried} (hc : CarryKeeps R carry) (h : RequestHeader) :
    CarryKeeps R (guardReserved h carry) := by
  intro s; unfold Machine.guardReserved; split
  · exact hc s
  · exact hR.refl s

theorem KeptByBlocks.carryForce (first count : BitVec 16) (level : Level) (profile : Byte) :
    CarryKeeps R (carryForce first count level profile) := by
  intro s; unfold Machine.carryForce; repeat' split
  · exact hR.park _ _ _ s
  all_goals exact hR.refl s

theorem KeptByBlocks.carryRelease (first count : BitVec 16) : CarryKeeps R (carryRelease first count) := by
  intro s; unfold Machine.carryRelease; split
  · exact hR.park _ _ _ s
  · exact hR.refl s

theorem KeptByBlocks.carrySaveScene (scene : Byte) : CarryKeeps R (carrySaveScene scene) := by
  intro s; unfold Machine.carrySaveScene; split
  · refine hR.scenes fun f c hf => ?_
    have hne : scene.toNat ≠ f.val := fun e => by simp [e] at hf
    simp only [Fin.getElem_fin, Vector.getElem_set, if_neg hne]
  · exact hR.refl s

/-- A write to the tables: the scene store at once, or the bank that is not in force (R159, R160). -/
theorem KeptByBlocks.writeEntries (t : TableName) (start : Nat) (entries : List (List Byte)) (s : State) :
    R s (writeEntries t start entries s) := by
  have shadow : ∀ b, Quiet s { s with banks := s.banks.set s.active.other b } := fun b => by
    simp [Quiet, State.activeBank]
  cases t
  case scenes => exact hR.scenes fun f c => writeScenes_unwritten
  all_goals exact hR.quiet (shadow _)

theorem KeptByBlocks.carryWrite (o : SessionOwner) (table : Byte) (index : BitVec 16) (count : Byte)
    (entries : List Byte) : CarryKeeps R (carryWrite o table index count entries) := by
  intro s; unfold Machine.carryWrite writeCarried; repeat' split
  any_goals exact hR.refl s
  exact hR.trans (hR.writeEntries _ _ _ s) (hR.quiet rfl)

theorem KeptByBlocks.carryOpen (o : SessionOwner) : CarryKeeps R (carryOpen o) := by
  intro s; unfold Machine.carryOpen; repeat' split
  all_goals exact hR.quiet rfl

theorem KeptByBlocks.carryCommit (o : SessionOwner) (expected : Crc32) : CarryKeeps R (carryCommit o expected) := by
  intro s; unfold Machine.carryCommit; split <;> exact hR.quiet rfl

theorem KeptByBlocks.carryAbort (o : SessionOwner) : CarryKeeps R (carryAbort o) := by
  intro s; unfold Machine.carryAbort; repeat' split
  all_goals exact hR.quiet rfl

/-! ### Frames and characters -/

/-- A completing frame, whatever command it is (R13). -/
theorem KeptByBlocks.runFrameCommand (i : Instr) (s : State) : R s (runFrameCommand i s) := by
  have request : ∀ {carry : State → Carried}, CarryKeeps R carry → ∀ form h code args,
      R s (Machine.onRequest form h code args (Machine.guardReserved h carry) s) :=
    fun hc form h code args => hR.onRequest (hR.guardReserved hc h) form h code args s
  have read : ∀ {carry : State → Carried}, (∀ s, (carry s).state = s) → CarryKeeps R carry :=
    fun hc s => hR.quiet (by rw [hc s]; rfl)
  cases i <;> simp only [Machine.runFrameCommand]
  case levelFrameA f => exact hR.onLevelA f s
  case levelFrameB f => exact hR.onLevelB f s
  case forwardFrame f => exact hR.after (hR.quiet (forwardPath_linked _ _).quiet) (settle_linked _ s).quiet
  case relayFrame f => exact hR.after (hR.quiet (relayPath_noticed _ _).quiet) (settle_linked _ s).quiet
  case bFrameDiscarded f => exact hR.quiet (settle_linked _ s).quiet
  case requestNotTaken h code args =>
    exact hR.after (hR.quiet (handOn_linked _ _ _ _).quiet) (settle_linked _ s).quiet
  case badCommand h code args => exact hR.onRequest (read fun _ => rfl) _ _ _ _ _
  case identify h extra => exact request (read fun _ => rfl) _ _ _ _
  case readStatus h extra => exact request (read fun _ => rfl) _ _ _ _
  case readChannels h f c e => exact request (read (carryReadChannels_state f c)) _ _ _ _
  case readInputs h p f c e => exact request (read (carryReadInputs_state p f c)) _ _ _ _
  case readTable h b t i c e => exact request (read (carryReadTable_state b t i c)) _ _ _ _
  case openSession h t e => exact request (hR.carryOpen _) _ _ _ _
  case writeTable h t tb i c e => exact request (hR.carryWrite _ _ _ _ _) _ _ _ _
  case commit h t x e => exact request (hR.carryCommit _ _) _ _ _ _
  case abortSession h t e => exact request (hR.carryAbort _) _ _ _ _
  case force h f c l p e => exact request (hR.carryForce _ _ _ _) _ _ _ _
  case release h f c e => exact request (hR.carryRelease _ _) _ _ _ _
  case saveScene h sc e => exact request (hR.carrySaveScene _) _ _ _ _
  case ackConditions h k e => exact request (carry := Machine.carryAck k) (fun _ => hR.quiet rfl) _ _ _ _
  case restart h e => exact request (carry := carryRestart) hR.restart _ _ _ _
  all_goals exact hR.refl s

theorem KeptByBlocks.completeFrame (r : Receiver) (f : Frame) (s : State) : R s (completeFrame r f s) := by
  unfold Machine.completeFrame; split
  · exact hR.errorAtSample _ _ s
  · exact hR.runFrameCommand _ s

theorem KeptByBlocks.truncatedOp (r : Receiver) (s : State) : R s (truncatedOp r s) := by
  unfold Machine.truncatedOp; dsimp only; split
  · exact hR.after (hR.receiveErrorOp _ _ _) rfl
  · exact hR.refl s

theorem KeptByBlocks.goodCharacterOp (r : Receiver) (b : Byte) (s : State) : R s (goodCharacterOp r b s) := by
  unfold Machine.goodCharacterOp receiveByte
  dsimp only
  repeat' split
  all_goals first
    | exact hR.errorAtSample _ _ s
    | exact hR.completeFrame _ _ s
    | exact hR.quiet rfl

theorem KeptByBlocks.badCharacterOp (r : Receiver) (s : State) : R s (badCharacterOp r s) := by
  unfold Machine.badCharacterOp
  dsimp only
  split
  · exact hR.quiet rfl
  · exact hR.quiet rfl
  · exact hR.errorAtSample _ _ s

end

theorem interFrameIdleOp_quiet (r : Receiver) (s : State) : Quiet s (interFrameIdleOp r s) := by
  unfold interFrameIdleOp; dsimp only; split <;> rfl

theorem KeptByBlocks.characterOp {R : State → State → Prop} (hR : KeptByBlocks R) (r : Receiver) (w : BitVec 10)
    (s : State) : R s (characterOp r w s) := by
  have truncate : ∀ n s, R s (truncateBefore r n s) := by
    intro n s; unfold truncateBefore; repeat' split
    · exact hR.truncatedOp r s
    all_goals exact hR.refl s
  have hunt : ∀ n s, Quiet s (huntBefore r n s) := by
    intro n s; unfold huntBefore; repeat' split
    · exact interFrameIdleOp_quiet r s
    all_goals rfl
  have before : ∀ n m s, R s ((huntBefore r n (truncateBefore r n s)).reach m) :=
    fun n m s => hR.trans (truncate n s) (hR.quiet ((show Quiet _ (State.reach _ m) from rfl).trans (hunt n _)))
  unfold Machine.characterOp takeCharacter
  dsimp only
  repeat' split
  · exact hR.refl s
  · exact hR.refl s
  · exact hR.trans (before _ _ s) (hR.goodCharacterOp _ _ _)
  · exact hR.trans (before _ _ s) (hR.badCharacterOp _ _)

/-! ### Timers, session and transmitters -/

theorem fadeTickOp_quiet (s : State) : Quiet s (fadeTickOp s) := by
  unfold fadeTickOp; dsimp only; repeat' split
  all_goals rfl

theorem sessionExpiryOp_quiet (s : State) : Quiet s (sessionExpiryOp s) := by
  unfold sessionExpiryOp; split
  · exact latch_quiet _ (startCopy (s.reach _))
  all_goals rfl

theorem verificationCompleteOp_quiet (s : State) : Quiet s (verificationCompleteOp s) := by
  unfold verificationCompleteOp
  dsimp only
  repeat' split
  · rfl
  · exact (latch_quiet .commitFailed _).trans rfl
  all_goals rfl

/-- A bank copy writes the bank that is not in force (R173, R174). -/
theorem copyCompleteOp_quiet (s : State) : Quiet s (copyCompleteOp s) := by
  unfold copyCompleteOp; split
  · simp [Quiet, State.activeBank, State.reach]
  all_goals rfl

theorem transmitCompleteOp_quiet (x : Transmitter) (s : State) : Quiet s (transmitCompleteOp x s) := by
  have entry : ∀ p s, Quiet s (entryCompleted p s) := by
    intro p s; unfold entryCompleted; split
    · exact (drainPending_noticed _).quiet.trans rfl
    · rfl
  have output : ∀ s, Quiet s (outputCompleted s) := by
    intro s; unfold outputCompleted; split <;> rfl
  unfold transmitCompleteOp
  split
  · cases x
    · exact (output _).trans rfl
    · exact (entry .a _).trans rfl
    · exact (entry .b _).trans rfl
  all_goals rfl

theorem gapEndOp_quiet (x : Transmitter) (s : State) : Quiet s (gapEndOp x s) := by
  unfold gapEndOp; split
  · exact (serve_linked _ _).quiet.trans rfl
  all_goals rfl

/-- A refresh expiry is quiet, or makes the changeover of a session ARMED (R108 to R111, R171). -/
theorem refreshExpiryOp_cases (s : State) :
    Quiet s (refreshExpiryOp s) ∨
      ∃ o k u, s.session = .armed o k ∧ Quiet s u ∧ Quiet (changeover k u) (refreshExpiryOp s) := by
  unfold refreshExpiryOp
  split
  · exact .inl rfl
  · rename_i n _
    dsimp only
    split
    · have served := serveD_linked { s.reach n with
        output := .waiting (s.reach n).outputSnapshot, nextSequence := (s.reach n).nextSequence + 1 }
      unfold takeSnapshot toldOfSnapshot
      split
      · rename_i o k hk
        exact .inr ⟨o, k, _, served.session.symm.trans hk, served.quiet.trans rfl, rfl⟩
      all_goals exact .inl (Eq.trans rfl (served.quiet.trans rfl))
    all_goals exact .inl rfl

theorem releaseReset_quiet (straps : BitVec 6) (a b d : Bool) (s : State) : Quiet s (releaseReset straps a b d s) := by
  rw [releaseReset_eq]; split
  · exact (latch_quiet _ _).trans rfl
  · rfl

theorem execPauseAssert_quiet {s t : State} (h : execPauseAssert s = .next t) : Quiet s t := by
  unfold execPauseAssert at h
  repeat' split at h
  all_goals
    injection h with h
    subst h
  · rfl
  · rfl
  · exact latch_quiet .paused { s with pause := true }

/-- What the operations keep, every command but HARD_RESET keeps, and REFRESH_EXPIRY of a session ARMED where a changeover
keeps it. -/
theorem KeptByBlocks.exec {R : State → State → Prop} (hR : KeptByBlocks R) {c : Instr} {s t : State}
    (hard : c ≠ .hardReset)
    (refresh : c = .refreshExpiry → ∀ o k, s.session = .armed o k → ∀ u, R u (changeover k u))
    (h : exec c s = .next t) : R s t := by
  have w : ∀ {f : State → State}, R s (f s) → whenRunning f s = .next t → R s t := by
    intro f hf hh
    obtain rfl | ⟨-, rfl⟩ := whenRunning_cases hh
    · exact hR.refl _
    · exact hf
  have frame : ∀ i, whenRunning (Machine.runFrameCommand i) s = .next t → R s t := fun i => w (hR.runFrameCommand i s)
  cases c <;> simp only [Machine.exec] at h
  case hardReset => exact absurd rfl hard
  case resetRelease x a b d =>
    unfold execResetRelease at h
    split at h
    · obtain rfl : releaseReset x a b d s = t := by injection h
      exact hR.quiet (releaseReset_quiet x a b d s)
    · obtain rfl : s = t := by injection h
      exact hR.refl s
  case pauseAssert => exact hR.quiet (execPauseAssert_quiet h)
  case pauseRelease =>
    obtain rfl : { s with pause := false } = t := by injection h
    exact hR.quiet rfl
  case fadeTick => exact w (hR.quiet (fadeTickOp_quiet s)) h
  case refreshExpiry =>
    refine w ?_ h
    obtain hq | ⟨o, k, u, hs, hbefore, hafter⟩ := refreshExpiryOp_cases s
    · exact hR.quiet hq
    · exact hR.after (hR.trans (refresh rfl o k hs u) (hR.quiet hafter)) hbefore
  case interFrameIdle r => exact w (hR.quiet (interFrameIdleOp_quiet r s)) h
  case truncated r => exact w (hR.truncatedOp r s) h
  case receiveError r e =>
    refine w ?_ h; unfold receiveErrorEvent; split
    · exact hR.refl s
    · exact hR.errorAtSample _ _ _
  case lineReturnHigh r => refine w (hR.quiet ?_) h; unfold lineReturnHighOp; dsimp only; split <;> rfl
  case characterReceived r x => exact w (hR.characterOp r x s) h
  case lossExpiry p => exact w (hR.lossExpiryOp p s) h
  case holdExpiry p => exact w (hR.holdExpiryOp p s) h
  case sessionExpiry => exact w (hR.quiet (sessionExpiryOp_quiet s)) h
  case verificationComplete => exact w (hR.quiet (verificationCompleteOp_quiet s)) h
  case copyComplete => exact w (hR.quiet (copyCompleteOp_quiet s)) h
  case transmitComplete x => exact w (hR.quiet (transmitCompleteOp_quiet x s)) h
  case gapEnd x => exact w (hR.quiet (gapEndOp_quiet x s)) h
  case forwardFrame | relayFrame | bFrameDiscarded | requestNotTaken | badCommand =>
    exact w (hR.completeFrame _ _ s) h
  case levelFrameA f => exact frame (.levelFrameA f) h
  case levelFrameB f => exact frame (.levelFrameB f) h
  case identify h' e => exact frame (.identify h' e) h
  case readStatus h' e => exact frame (.readStatus h' e) h
  case readChannels h' f c e => exact frame (.readChannels h' f c e) h
  case readInputs h' p f c e => exact frame (.readInputs h' p f c e) h
  case readTable h' b t' i c e => exact frame (.readTable h' b t' i c e) h
  case openSession h' t' e => exact frame (.openSession h' t' e) h
  case writeTable h' t' tb i c e => exact frame (.writeTable h' t' tb i c e) h
  case commit h' t' x e => exact frame (.commit h' t' x e) h
  case abortSession h' t' e => exact frame (.abortSession h' t' e) h
  case force h' f c l p e => exact frame (.force h' f c l p e) h
  case release h' f c e => exact frame (.release h' f c e) h
  case saveScene h' sc e => exact frame (.saveScene h' sc e) h
  case ackConditions h' k e => exact frame (.ackConditions h' k e) h
  case restart h' e => exact frame (.restart h' e) h

end Sys2Proof.Machine
end

section
/-! Every target record stays what a resolution would give (O58). -/

namespace Sys2Proof.Machine

/-! ## One channel -/

/-- A channel's target record is what a resolution of it would give, and the channel has an owner only under LATEST (R47,
R53). -/
def State.ChannelSound (s : State) (c : Fin Config.channels) : Prop :=
  resolveTarget s c s.targets[c] = s.targets[c] ∧
    (s.activeBank.map[c].mergeRule ≠ .latest → s.targets[c].owner = .nobody)

theorem State.channelsSound_iff (s : State) : (∀ c, s.ChannelSound c) ↔ s.TargetsResolved ∧ s.OwnersSound := forall_and

/-- What a source contributes depends on the state of its port and on its slot (R42). -/
theorem contribution_congr {x y : PerPort PortUnit} {src : Option Source}
    (h : ∀ q i, src = some ⟨q, i⟩ → (y.get q).state = (x.get q).state ∧ (y.get q).slots[i] = (x.get q).slots[i]) :
    contribution y src = contribution x src := by
  cases src with
  | none => rfl
  | some src =>
    obtain ⟨hstate, hslot⟩ := h src.port src.slot rfl
    simp only [contribution, hstate, hslot]

/-- Port units replaced do not matter to a channel whose sources contribute what they did (R55). -/
theorem resolveTarget_ports {s : State} {c : Fin Config.channels} {x : PerPort PortUnit}
    (h1 : contribution x s.activeBank.map[c].sources.1 = contribution s.ports s.activeBank.map[c].sources.1)
    (h2 : contribution x s.activeBank.map[c].sources.2 = contribution s.ports s.activeBank.map[c].sources.2)
    (r : TargetRecord) : resolveTarget { s with ports := x } c r = resolveTarget s c r := by
  have hlive : State.liveLevel { s with ports := x } c r.owner = s.liveLevel c r.owner := by
    unfold State.liveLevel mergedValue
    rw [← h1, ← h2]
    rfl
  unfold resolveTarget
  rw [hlive]
  rfl

/-- Park records of other channels do not matter (R54). -/
theorem resolveTarget_parks {s : State} {c : Fin Config.channels} {x : Vector ParkRecord Config.channels}
    (h : x[c] = s.parks[c]) (r : TargetRecord) : resolveTarget { s with parks := x } c r = resolveTarget s c r := by
  unfold resolveTarget
  rw [← h]
  rfl

/-- Scene entries that a channel does not fall back on do not matter to it (R57). -/
theorem fallbackLevel_scenes {s : State} {c : Fin Config.channels} {x : Vector (Vector Level Config.channels) 4}
    (h : ∀ f, s.config.fallback = some f → x[f][c] = s.scenes[f][c]) :
    State.fallbackLevel { s with scenes := x } c = s.fallbackLevel c :=
  if_congr Iff.rfl rfl (Option.map_congr fun f hf => congrArg (·, profileId s.config.fallbackProfile.toNat) (h f hf))

/-- Whether a channel falls back on a scene does not depend on what the scene holds (R56, R57). -/
theorem fallbackLevel_none {s : State} {c : Fin Config.channels} (x : Vector (Vector Level Config.channels) 4)
    (h : s.fallbackLevel c = none) : State.fallbackLevel { s with scenes := x } c = none := by
  unfold State.fallbackLevel at h ⊢
  split at h
  · rename_i hhold
    exact if_pos hhold
  · rename_i hhold
    exact (if_neg hhold).trans (Option.map_eq_none_iff.mpr (Option.map_eq_none_iff.mp h))

/-- The first step is the fallback scene only where none before it applies, and then the kind is SCENE (R57). -/
theorem firstStep_notScene {park : ParkRecord} {profile : Fin 16} {live : Option Level} {scene : Option (Level × Fin 16)}
    {t : TargetRecord} (h : (firstStep park profile live scene t).kind ≠ .scene) :
    park.parked = true ∨ live.isSome = true ∨ scene = none := by
  by_cases hp : park.parked = true
  · exact .inl hp
  cases live with
  | some v => exact .inr (.inl rfl)
  | none =>
    cases scene with
    | none => exact .inr (.inr rfl)
    | some x => exact absurd (by simp [firstStep, hp]) h

/-- What the scenes hold does not matter to a channel that falls on another step (R54 to R57). -/
theorem resolveTarget_otherScenes {s : State} {c : Fin Config.channels} {r : TargetRecord}
    (h : (resolveTarget s c r).kind ≠ .scene) (x : Vector (Vector Level Config.channels) 4) :
    resolveTarget { s with scenes := x } c r = resolveTarget s c r := by
  have hparts : resolveTarget { s with scenes := x } c r = firstStep s.parks[c] (s.mapProfile c) (s.liveLevel c r.owner)
      (State.fallbackLevel { s with scenes := x } c) r := rfl
  rw [hparts]
  unfold resolveTarget at h ⊢
  obtain hp | hl | hs := firstStep_notScene h
  · simp only [firstStep, hp, if_true]
  · obtain ⟨v, hv⟩ := Option.isSome_iff_exists.mp hl
    simp only [firstStep, hv]
  · rw [hs, fallbackLevel_none x hs]

/-- A channel just resolved is sound (R53). -/
theorem State.ChannelSound.resolved {t : State} {c : Fin Config.channels} {r : TargetRecord}
    (h : t.targets[c] = resolveTarget t c r) (ho : t.activeBank.map[c].mergeRule ≠ .latest → r.owner = .nobody) :
    t.ChannelSound c := by
  unfold State.ChannelSound
  rw [h, resolveTarget_idempotent, resolveTarget_owner]
  exact ⟨rfl, ho⟩

/-- A channel left alone, by an event that it does not depend on, stays sound. -/
theorem State.ChannelSound.untouched {s t : State} {c : Fin Config.channels} (h : s.ChannelSound c)
    (ht : t.targets[c] = s.targets[c]) (hbank : t.activeBank = s.activeBank)
    (hr : resolveTarget t c s.targets[c] = resolveTarget s c s.targets[c]) : t.ChannelSound c := by
  unfold State.ChannelSound
  rw [ht, hr, hbank]
  exact h

/-! ## The operations -/

/-- Between two states the channels that were sound stay sound. -/
def KeepsChannels (s t : State) : Prop := ∀ c, s.ChannelSound c → t.ChannelSound c

theorem KeepsChannels.of_quiet {s t : State} (h : Quiet s t) : KeepsChannels s t := by
  simp only [Quiet, Prod.mk.injEq] at h
  obtain ⟨hports, htargets, hparks, hscenes, -, hbank, -⟩ := h
  exact fun c hc => hc.untouched (by rw [htargets]) hbank (resolveTarget_congr hparks hports hbank hscenes c _)

/-- A port that keeps its state and its slots contributes what it did (R42). -/
theorem setPort_keepsChannels {p : Port} {s : State} {v : PortUnit} (hstate : v.state = (s.ports.get p).state)
    (hslots : v.slots = (s.ports.get p).slots) : KeepsChannels s (s.setPort p v) := by
  have same : ∀ src, contribution (s.setPort p v).ports src = contribution s.ports src := fun src =>
    contribution_congr fun q i _ => by
      rw [setPort_ports, PerPort.get_set]
      split
      · rename_i hq
        subst hq
        simp only [hstate, hslots, and_self]
      · exact ⟨rfl, rfl⟩
  exact fun c hc => hc.untouched rfl rfl (resolveTarget_ports (same _) (same _) _)

/-- A port unit replaced matters only to the channels with a source on the port (R42). -/
theorem contribution_otherPort {p : Port} {x : PerPort PortUnit} {v : PortUnit} {src : Option Source}
    (h : ¬ OnPort p src) : contribution (x.set p v) src = contribution x src :=
  contribution_congr fun q i hsrc => by
    have hq : q ≠ p := fun hqp => h ⟨i, hqp ▸ hsrc⟩
    rw [PerPort.get_set, if_neg hq]
    exact ⟨rfl, rfl⟩

/-- A port whose state changed, whatever else: its report resolves every channel with a source on it (R21, R58). -/
theorem stateReport_keepsChannels {p : Port} {s w : State} {v : PortUnit} (h : Noticed (s.setPort p v) w) :
    KeepsChannels s (stateReport p w) := by
  obtain ⟨hnoticed, htargets, -⟩ := stateReport_facts p w
  intro c hc
  obtain ⟨hon, hoff⟩ := htargets c
  have hbank : w.activeBank = s.activeBank := h.activeBank
  have htarget : w.targets[c] = s.targets[c] := by rw [h.targets, setPort_targets]
  by_cases hsrc : OnPort p w.activeBank.map[c].sources.1 ∨ OnPort p w.activeBank.map[c].sources.2
  · refine .resolved (hon hsrc) fun hrule => ?_
    rw [htarget]
    exact hc.2 (by rwa [hnoticed.activeBank.trans hbank] at hrule)
  · obtain ⟨h1, h2⟩ := not_or.mp hsrc
    refine hc.untouched ((hoff h1 h2).trans htarget) (hnoticed.activeBank.trans hbank) ?_
    rw [hbank] at h1 h2
    rw [hnoticed.resolveTarget]
    refine (h.resolveTarget c _).trans (resolveTarget_ports ?_ ?_ _)
    · exact contribution_otherPort h1
    · exact contribution_otherPort h2

/-- A slot outside the change set of a frame is as it was (R20). -/
theorem writeSlots_unchanged {slots : Vector Slot Config.channels} {f : LevelFrame} {i : Fin Config.channels}
    (h : inChangeSet slots f i = false) : (writeSlots slots f)[i] = slots[i] := by
  unfold inChangeSet at h
  unfold writeSlots
  simp only [Fin.getElem_fin, Table.getElem_mapFin]
  cases hv : frameLevel f i with
  | none => rfl
  | some v =>
    obtain ⟨hvalid, hlevel⟩ : slots[i].valid = true ∧ slots[i].level = v := by simpa [hv] using h
    rw [← hvalid, ← hlevel]
    rfl

/-- A source that the report of an accepted frame does not concern contributes what it did (R42, R58). -/
theorem contribution_unconcerned {p : Port} {f : LevelFrame} {x : PerPort PortUnit} {v : PortUnit} {src : Option Source}
    (hslots : v.slots = writeSlots (x.get p).slots f)
    (h : sourceConcerned p (inChangeSet (x.get p).slots f) (v.state != (x.get p).state) src = false) :
    contribution (x.set p v) src = contribution x src := by
  refine contribution_congr fun q i hsrc => ?_
  rw [PerPort.get_set]
  split
  · rename_i hq
    subst hq
    have hnot := mt (sourceConcerned_iff q _ _ src).mpr (Bool.eq_false_iff.mp h)
    have hstate : ¬ (v.state != (x.get q).state) = true := fun hs => hnot ⟨i, hsrc, .inl hs⟩
    have hslot : ¬ inChangeSet (x.get q).slots f i = true := fun hs => hnot ⟨i, hsrc, .inr hs⟩
    simp only [hslots, writeSlots_unchanged (Bool.eq_false_iff.mpr hslot), and_true]
    simpa using hstate
  · exact ⟨rfl, rfl⟩

/-- Only a LATEST channel's owner moves (R47). -/
theorem moveOwner_notLatest {p : Port} {moved : Fin Config.channels → Bool} {e : MapEntry} (h : e.mergeRule ≠ .latest)
    (t : TargetRecord) : moveOwner p moved e t = t := if_neg h

/-- An accepted frame resolves every channel that one of its changes concerns (R47, R58). -/
theorem acceptFrame_keepsChannels (p : Port) (f : LevelFrame) (s : State) : KeepsChannels s (acceptFrame p f s) := by
  obtain ⟨hports, hnoticed, htargets, -⟩ := acceptFrame_facts p f s
  obtain ⟨hslots, -, -⟩ := goodFrameUnit_rest s.now (s.lossClocks p) s.config.acquireCount.toNat
    { s.ports.get p with slots := writeSlots (s.ports.get p).slots f, lastSequence := f.sequence }
  generalize (goodFrameUnit s.now (s.lossClocks p) s.config.acquireCount.toNat
    { s.ports.get p with slots := writeSlots (s.ports.get p).slots f, lastSequence := f.sequence }).1 = v at *
  generalize acceptFrame p f s = t at *
  have hbank : t.activeBank = s.activeBank := hnoticed.activeBank
  intro c hc
  have htarget := htargets c
  dsimp only at htarget
  split at htarget
  · refine .resolved htarget fun hrule => ?_
    rw [hbank] at hrule
    rw [moveOwner_notLatest hrule]
    exact hc.2 hrule
  · rename_i hcon
    obtain ⟨h1, h2⟩ : _ ∧ _ := by simpa only [entryConcerned, Bool.or_eq_true, not_or, Bool.not_eq_true] using hcon
    refine hc.untouched (htarget.trans (moveOwner_unconcerned _ hcon)) hbank ?_
    refine (hnoticed.resolveTarget c _).trans (resolveTarget_ports (s := s) ?_ ?_ _)
    · rw [hports]; exact contribution_unconcerned hslots h1
    · rw [hports]; exact contribution_unconcerned hslots h2

/-- A park record of a range (R91). -/
theorem setParks_get (first count : Nat) (p : ParkRecord) (s : State) (c : Fin Config.channels) :
    (setParks first count p s).parks[c] = if inRange first count c then p else s.parks[c] := by
  simp [setParks]

/-- The targets of the channels of a range, resolved with their new park records (R59). -/
theorem parkRange_target (first count : BitVec 16) (p : ParkRecord) (s : State) (c : Fin Config.channels) :
    (parkRange first count p s).state.targets[c] =
      if inRange first.toNat count.toNat c then resolveTarget (parkRange first count p s).state c s.targets[c]
      else s.targets[c] :=
  resolveQuiet_target _ (setParks first.toNat count.toNat p s) c

/-- Parking and releasing resolve the channels whose park records they replace (R59). -/
theorem parkRange_keepsChannels (first count : BitVec 16) (p : ParkRecord) (s : State) :
    KeepsChannels s (parkRange first count p s).state := by
  intro c hc
  have htarget := parkRange_target first count p s c
  split at htarget
  · exact .resolved htarget hc.2
  · rename_i hout
    exact hc.untouched htarget rfl (resolveTarget_parks ((setParks_get _ _ p s c).trans (if_neg hout)) _)

/-- The targets after a write to the scene store (R59, R98). -/
theorem sceneWritten_target (written : Fin 4 → Fin Config.channels → Bool) (s : State) (c : Fin Config.channels) :
    (sceneWritten written s).targets[c] =
      if (∃ f, s.config.fallback = some f ∧ s.targets[c].kind = .scene ∧ written f c = true) then
        resolveTarget (sceneWritten written s) c s.targets[c]
      else s.targets[c] := by
  refine (resolveQuiet_target _ s c).trans (if_congr ?_ rfl rfl)
  cases s.config.fallback <;> simp

/-- A write to the scenes resolves the channels in SCENE: those whose entry of the fallback scene it writes at once, and a
resolution of the others would change nothing (R59, R98). -/
theorem sceneWritten_resolves {written : Fin 4 → Fin Config.channels → Bool} {s : State}
    {x : Vector (Vector Level Config.channels) 4} {c : Fin Config.channels}
    (h : ∀ f : Fin 4, written f c = false → x[f][c] = s.scenes[f][c])
    (hc : resolveTarget s c s.targets[c] = s.targets[c]) :
    let t := sceneWritten written { s with scenes := x }
    (s.targets[c].kind = .scene → t.targets[c] = resolveTarget t c s.targets[c]) ∧
    (s.targets[c].kind ≠ .scene → t.targets[c] = s.targets[c]) := by
  intro t
  have htarget := sceneWritten_target written { s with scenes := x } c
  refine ⟨fun hkind => ?_, fun hkind => htarget.trans (if_neg fun ⟨_, _, hscene, _⟩ => hkind hscene)⟩
  split at htarget
  · exact htarget
  · rename_i hnot
    have hsame : resolveTarget t c s.targets[c] = resolveTarget s c s.targets[c] := by
      show resolveTarget { s with scenes := x } c _ = _
      unfold resolveTarget
      rw [fallbackLevel_scenes fun f hf => h f (Bool.eq_false_iff.mpr fun hw => hnot ⟨f, hf, hkind, hw⟩)]
      rfl
    exact htarget.trans (hc.symm.trans hsame.symm)

theorem sceneWritten_keepsChannels {written : Fin 4 → Fin Config.channels → Bool} {s : State}
    {x : Vector (Vector Level Config.channels) 4}
    (h : ∀ (f : Fin 4) (c : Fin Config.channels), written f c = false → x[f][c] = s.scenes[f][c]) :
    KeepsChannels s (sceneWritten written { s with scenes := x }) := by
  intro c hc
  obtain ⟨hscene, hother⟩ := sceneWritten_resolves (fun f => h f c) hc.1
  by_cases hkind : s.targets[c].kind = .scene
  · exact .resolved (hscene hkind) hc.2
  · exact hc.untouched (hother hkind) rfl (resolveTarget_otherScenes (by rwa [hc.1]) x)

theorem warmRestart_keepsChannels (s : State) : KeepsChannels s (warmRestart s) :=
  fun c _ => .resolved (warmRestart_target s c) fun _ => rfl

theorem changeover_keepsChannels (k : Crc32) (s : State) : KeepsChannels s (changeover k s) :=
  fun c _ => .resolved ((changeover_facts k s).2.1 c) fun _ => rfl

theorem keepsChannels_keptByBlocks : KeptByBlocks KeepsChannels where
  trans h k c hc := k c (h c hc)
  quiet := .of_quiet
  port := setPort_keepsChannels
  report := stateReport_keepsChannels
  accept := acceptFrame_keepsChannels
  park := parkRange_keepsChannels
  scenes := sceneWritten_keepsChannels
  restart := warmRestart_keepsChannels

/-! ## The claim -/

/-- The channels are sound after a hard reset (R62, R179). -/
theorem heldInReset_channelsSound (s : State) (c : Fin Config.channels) : (heldInReset s).ChannelSound c := by
  obtain ⟨-, -, -, -, -, -, -, -, -, hresolved, howners, -⟩ := resetIsSound
  have reset : State.reset.ChannelSound c := (State.reset.channelsSound_iff.mpr ⟨hresolved, howners⟩) c
  exact KeepsChannels.of_quiet (t := heldInReset s) rfl c reset

/-- Settles O58: each operation resolves the channels that what it changes can concern, and every command is made of such
operations. -/
theorem targetsStayResolved : Obligations.TargetsStayResolved := by
  refine keptByEveryStep_of_exec (fun _ _ _ _ h => h) fun c s t h he => ?_
  rw [← State.channelsSound_iff] at h ⊢
  by_cases hard : c = .hardReset
  · subst hard
    obtain rfl : heldInReset s = t := by injection he
    exact heldInReset_channelsSound s
  · exact fun i => keepsChannels_keptByBlocks.exec hard (fun _ _ k _ u => changeover_keepsChannels k u) he i (h i)

end Sys2Proof.Machine
end

section
/-! What changes the fades and the program in force (O60). -/

namespace Sys2Proof.Machine

/-- The states agree on the program in force and its checksum (R150, R171). -/
def SameProgram (s t : State) : Prop :=
  t.active = s.active ∧ t.activeBank = s.activeBank ∧ t.checksum = s.checksum

theorem Steady.sameProgram {s t : State} (h : Steady s t) : SameProgram s t := ⟨h.active, h.activeBank, h.checksum⟩

theorem Quiet.sameProgram {s t : State} (h : Quiet s t) : SameProgram s t := by
  simp only [Quiet, Prod.mk.injEq] at h
  obtain ⟨-, -, -, -, hprogram⟩ := h
  exact hprogram

theorem sameProgram_keptByBlocks : KeptByBlocks SameProgram where
  trans h k := ⟨k.1.trans h.1, k.2.1.trans h.2.1, k.2.2.trans h.2.2⟩
  quiet := Quiet.sameProgram
  port _ _ := ⟨rfl, rfl, rfl⟩
  report h := (h.steady.trans (portReport_steady _ _ _ _)).sameProgram
  accept p f s := (acceptFrame_steady p f s).sameProgram
  park first count r s := (parkRange_steady first count r s).sameProgram
  scenes _ := ⟨rfl, rfl, rfl⟩
  restart s := (warmRestart_steady s).sameProgram

/-- No command changes a fade context but a fade tick, HARD_RESET, and a refresh expiry that makes the changeover with
a tick due (R61, R69, R87, R88). -/
theorem exec_fades {c : Instr} {s t : State} (htick : c ≠ .fadeTick) (hard : c ≠ .hardReset)
    (hrefresh : c = .refreshExpiry → s.output = .empty → ∀ o k, s.session = .armed o k →
      ∀ n m, s.refreshAt = some n → s.tickAt = some m → max s.now n < m)
    (h : exec c s = .next t) : t.fades = s.fades := by
  by_cases hr : c = .refreshExpiry
  · subst hr
    obtain rfl | ⟨-, rfl⟩ := whenRunning_cases h
    · rfl
    · exact refreshExpiryOp_fades (hrefresh rfl)
  by_cases hrelease : ∃ x a b d, c = .resetRelease x a b d
  · obtain ⟨x, a, b, d, rfl⟩ := hrelease
    simp only [exec, execResetRelease] at h
    split at h
    · obtain rfl : releaseReset x a b d s = t := by injection h
      rw [releaseReset_eq]
      split
      · exact (latch_noticed _ _).fades
      · rfl
    · obtain rfl : s = t := by injection h
      rfl
  by_cases hassert : c = .pauseAssert
  · subst hassert
    simp only [exec, execPauseAssert] at h
    repeat' split at h
    all_goals
      injection h with h
      subst h
    · rfl
    · rfl
    · exact (latch_noticed _ _).fades
  by_cases hpause : c = .pauseRelease
  · subst hpause
    obtain rfl : { s with pause := false } = t := by injection h
    rfl
  exact (exec_kept hard (fun x a b d e => hrelease ⟨x, a, b, d, e⟩) hassert hpause htick hr h).fades

/-- Settles O60: the fades by what a fade tick, a refresh expiry and a reset do; the program by the operations of which
every other command is made. -/
theorem onlyTheirEventsChangeFadesAndProgram : Obligations.OnlyTheirEventsChangeFadesAndProgram :=
  ⟨fun _ _ _ => exec_fades, fun _ _ _ hard hidle h =>
    sameProgram_keptByBlocks.exec hard (fun hc o k hs => absurd hs (hidle hc o k)) h⟩

end Sys2Proof.Machine
end

section
/-! Owner moves, curves, merging and resolution (O18, O20, O21). -/

namespace Sys2Proof.Machine

/-! ## Owner moves -/

/-- Whether a frame changes the level of a valid slot (R47). -/
theorem changesValid_iff (slots : Vector Slot Config.channels) (f : LevelFrame) (i : Fin Config.channels) :
    changesValid slots f i = true ↔ ∃ v, f.first.toNat ≤ i.val ∧ f.levels[i.val - f.first.toNat]? = some v ∧
      slots[i].valid = true ∧ slots[i].level ≠ v := by
  unfold changesValid frameLevel
  by_cases hi : f.first.toNat ≤ i.val
  · cases hv : f.levels[i.val - f.first.toNat]? <;> simp [hi]
  · simp [hi]

/-- The sources that a frame moves are those the claims say it does (R47). -/
theorem sourceMoved_iff (p : Port) (f : LevelFrame) (s : State) (src : Option Source) :
    sourceMoved p (changesValid (s.ports.get p).slots f) src = true ↔ MovesSource p f s src := by
  simp only [sourceMoved, sourceConcerned_iff, Bool.false_eq_true, false_or, changesValid_iff, MovesSource,
    exists_and_left]

/-- The owner after a move: that of the first source moved, of a LATEST channel only (R47, R48). -/
theorem moveOwner_owner (p : Port) (f : LevelFrame) (s : State) (e : MapEntry) (t : TargetRecord) :
    let owner := (moveOwner p (changesValid (s.ports.get p).slots f) e t).owner
    (e.rule = 4 → MovesSource p f s e.sources.1 → owner = .source1) ∧
    (e.rule = 4 → ¬ MovesSource p f s e.sources.1 → MovesSource p f s e.sources.2 → owner = .source2) ∧
    ((e.rule ≠ 4 ∨ (¬ MovesSource p f s e.sources.1 ∧ ¬ MovesSource p f s e.sources.2)) → owner = t.owner) := by
  simp only [moveOwner, mergeRule_latest, ← sourceMoved_iff]
  refine ⟨fun hr h1 => ?_, fun hr h1 h2 => ?_, ?_⟩
  · rw [if_pos hr, if_pos h1]
  · rw [if_pos hr, if_neg h1, if_pos h2]
  · rintro (hr | ⟨h1, h2⟩)
    · rw [if_neg hr]
    · rw [if_neg h1, if_neg h2, ite_self]

/-- Settles O18: an accepted frame moves the owners, and the resolutions after it leave them. -/
theorem latestOwnerMoves : Obligations.LatestOwnerMoves := by
  intro p f s t hs hw ha h c e
  obtain rfl : acceptFrame p f (settle (rxOf p) s) = t := by
    rw [levelCommand_accepted p f s hs hw ha] at h
    injection h
  obtain ⟨-, -, htargets, -⟩ := acceptFrame_facts p f (settle (rxOf p) s)
  have howner : (acceptFrame p f (settle (rxOf p) s)).targets[c].owner =
      (moveOwner p (changesValid (s.ports.get p).slots f) e s.targets[c]).owner := by
    refine (congrArg TargetRecord.owner (htargets c)).trans ?_
    dsimp only
    split
    · exact resolveTarget_owner _ _ _
    · rfl
  rw [howner]
  exact moveOwner_owner p f s e s.targets[c]

/-! ## Curves -/

/-- A part of a difference, truncated toward zero, lies between 0 and the difference (R50). -/
theorem interpolated_between (d : Int) {f : Nat} (hf : f < 4096) :
    min 0 d ≤ (d * (f : Int)).tdiv 4096 ∧ (d * (f : Int)).tdiv 4096 ≤ max 0 d := by
  obtain ⟨n, hd⟩ := d.eq_nat_or_neg
  have hle : n * f / 4096 ≤ n := Nat.div_le_of_le_mul (by rw [Nat.mul_comm n]; exact Nat.mul_le_mul_right n hf.le)
  obtain rfl | rfl := hd
  · have hq : ((n : Int) * (f : Int)).tdiv 4096 = ((n * f / 4096 : Nat) : Int) := by
      rw [← Int.natCast_mul]
      rfl
    omega
  · have hq : (-(n : Int) * (f : Int)).tdiv 4096 = -((n * f / 4096 : Nat) : Int) := by
      rw [Int.neg_mul, Int.neg_tdiv, ← Int.natCast_mul]
      rfl
    omega

/-- Settles O20: the output lies between two points, so it fits a level. -/
theorem curveOutputIsInterpolated : Obligations.CurveOutputIsInterpolated := by
  intro y x k f hx hf
  have hk : x.toNat / 4096 = k.val := by omega
  have hr : x.toNat % 4096 = f := by omega
  have hout : curveOutput y x = BitVec.ofInt 16 ((y[k.val].toNat : Int) +
      (((y[k.val + 1].toNat : Int) - (y[k.val].toNat : Int)) * (f : Int)).tdiv 4096) := by
    simp only [curveOutput, hk, hr]
  obtain ⟨hlow, hhigh⟩ := interpolated_between ((y[k.val + 1].toNat : Int) - (y[k.val].toNat : Int)) hf
  have h0 := y[k.val].isLt
  have h1 := y[k.val + 1].isLt
  have hvalue : ((curveOutput y x).toNat : Int) = (y[k.val].toNat : Int) +
      (((y[k.val + 1].toNat : Int) - (y[k.val].toNat : Int)) * (f : Int)).tdiv 4096 := by
    rw [hout, BitVec.toNat_ofInt, Int.toNat_of_nonneg (by omega), Int.emod_eq_of_lt (by omega) (by omega)]
  exact ⟨hvalue, by omega, by omega⟩

/-! ## Fields as given -/

/-- A field with the presence bit clear is no source (R211, R214). -/
theorem decodeSource_absent {f : BitVec 16} (h : f.toNat < 32768) : decodeSource f = none := by
  refine if_neg (Bool.eq_false_iff.mp ?_)
  rw [sourcePresent, BitVec.getLsbD, Nat.testBit_eq_decide_div_mod_eq, decide_eq_false_iff_not]
  omega

/-- A present field names the port and the slot of its bits (R211, R214). -/
theorem decodeSource_present {f : BitVec 16} {p : Port} {i : Fin Config.channels}
    (h : f.toNat = 32768 + 512 * (if p = .a then 0 else 1) + i.val) : decodeSource f = some ⟨p, i⟩ := by
  have hi : i.val < 384 := i.isLt
  have hport : (if p = Port.a then 0 else 1) ≤ 1 := by split <;> decide
  have hp : sourcePresent f = true := by
    rw [sourcePresent, BitVec.getLsbD, Nat.testBit_eq_decide_div_mod_eq, decide_eq_true_eq]
    omega
  have hslot : (f.extractLsb' 0 9).toNat = i.val := by
    rw [BitVec.extractLsb'_toNat, Nat.shiftRight_eq_div_pow]
    omega
  have hbits : (f.extractLsb' 9 6).toNat = if p = Port.a then 0 else 1 := by
    rw [BitVec.extractLsb'_toNat, Nat.shiftRight_eq_div_pow]
    omega
  have hfin : (⟨(f.extractLsb' 0 9).toNat, hslot ▸ hi⟩ : Fin Config.channels) = i := Fin.ext hslot
  unfold decodeSource
  rw [if_pos hp, dif_pos (show _ < Config.channels from hslot ▸ hi), hfin]
  cases p with
  | a => rw [if_pos (BitVec.eq_of_toNat_eq hbits)]
  | b =>
    have hone : f.extractLsb' 9 6 = 1 := BitVec.eq_of_toNat_eq hbits
    rw [hone]
    rfl

/-- The fields of the tables are read as chapter 10 gives them (R150, R211, R214). -/
theorem fields_readAsGiven : FieldsReadAsGiven := by
  refine ⟨fun e => ⟨decodeSource_absent, decodeSource_absent, fun p i => ⟨decodeSource_present, decodeSource_present⟩,
    fun h => ?_, fun k h => ?_⟩, fun c => ⟨fun h => ?_, fun f h => ?_⟩, fun n => ?_⟩
  · exact dif_neg (by rw [h]; decide)
  · have hk : k.val < 8 := k.isLt
    refine (dif_pos ⟨by omega, by omega⟩).trans (congrArg some (Fin.ext ?_))
    show e.curve.toNat - 1 = k.val
    omega
  · exact dif_neg (by rw [h]; decide)
  · exact (dif_pos (by omega)).trans (congrArg some (Fin.ext h))
  · exact Fin.ext (Nat.mod_eq_of_lt n.isLt)

/-! ## Merging -/

/-- The rule of a code (R211). -/
theorem mergeRule_of {e : MapEntry} {code : BitVec 3} {rule : MergeRule} (h : e.rule = code)
    (hc : MergeRule.ofCode code = some rule) : e.mergeRule = rule := by
  rw [MapEntry.mergeRule, h, hc, Option.getD_some]

/-- The larger of two contributions, source 1 where they are equal (R44). -/
theorem highest_eq_some {c1 c2 : Option Level} {v : Level} :
    highest c1 c2 = some v ↔
      (c1 = some v ∧ (c2 = none ∨ ∃ w, c2 = some w ∧ w.toNat ≤ v.toNat)) ∨
      (c2 = some v ∧ (c1 = none ∨ ∃ w, c1 = some w ∧ w.toNat < v.toNat)) := by
  cases c1 with
  | none => cases c2 <;> simp [highest]
  | some v1 =>
    cases c2 with
    | none => simp [highest]
    | some v2 =>
      by_cases hlt : v2.toNat > v1.toNat
      · simp only [highest, if_pos hlt, Option.some.injEq, reduceCtorEq, false_or]
        constructor
        · rintro rfl
          exact .inr ⟨rfl, _, rfl, hlt⟩
        · rintro (⟨rfl, w, rfl, hw⟩ | ⟨rfl, -⟩)
          · omega
          · rfl
      · simp only [highest, if_neg hlt, Option.some.injEq, reduceCtorEq, false_or]
        constructor
        · rintro rfl
          exact .inl ⟨rfl, _, rfl, by omega⟩
        · rintro (⟨rfl, -⟩ | ⟨rfl, w, rfl, hw⟩)
          · rfl
          · omega

theorem offers_iff (x : PortState) : x.offers = true ↔ x = .live ∨ x = .holding := by
  cases x <;> simp [PortState.offers]

/-- A source contributes the level of its slot, while its port offers and the slot is valid (R31, R42). -/
theorem contribution_eq_some {ports : PerPort PortUnit} {src : Option Source} {v : Level} :
    contribution ports src = some v ↔
      ∃ q i, src = some ⟨q, i⟩ ∧ ((ports.get q).state = .live ∨ (ports.get q).state = .holding) ∧
        (ports.get q).slots[i] = ⟨v, true⟩ := by
  cases src with
  | none => simp [contribution]
  | some src =>
    obtain ⟨q, i⟩ := src
    have hslot : ∀ x : Slot, x = ⟨v, true⟩ ↔ x.valid = true ∧ x.level = v := by
      rintro ⟨level, valid⟩
      rw [Slot.mk.injEq, and_comm]
    simp only [contribution, Option.ite_none_right_eq_some, Bool.and_eq_true, offers_iff, Option.some.injEq, and_assoc]
    constructor
    · exact fun h => ⟨q, i, rfl, h.1, (hslot _).mpr h.2⟩
    · rintro ⟨_, _, ⟨⟩, ho, hv⟩
      exact ⟨ho, (hslot _).mp hv⟩

/-- The merged value under each rule (R43 to R46). -/
theorem mergedValue_asGiven (ports : PerPort PortUnit) (e : MapEntry) (owner : MergeOwner) :
    let c1 := contribution ports e.sources.1
    let c2 := contribution ports e.sources.2
    (e.rule = 0 → mergedValue ports e owner = none) ∧
    (e.rule = 1 → mergedValue ports e owner = c1) ∧
    (e.rule = 2 → mergedValue ports e owner = highest c1 c2) ∧
    (e.rule = 3 → mergedValue ports e owner = c1.or c2) ∧
    (e.rule = 4 → owner ≠ .source2 → mergedValue ports e owner = c1.or c2) ∧
    (e.rule = 4 → owner = .source2 → mergedValue ports e owner = c2.or c1) := by
  unfold mergedValue
  refine ⟨fun h => ?_, fun h => ?_, fun h => ?_, fun h => ?_, fun h ho => ?_, fun h ho => ?_⟩
  · rw [mergeRule_of h rfl, merge]
  · rw [mergeRule_of h rfl, merge]
  · rw [mergeRule_of h rfl, merge]
  · rw [mergeRule_of h rfl, merge]
  · rw [mergeRule_of h rfl]
    cases owner with
    | nobody | source1 => rfl
    | source2 => exact absurd rfl ho
  · rw [mergeRule_of h rfl, ho, merge]

/-! ## Resolution -/

section

variable {s : State} {c : Fin Config.channels} {t : TargetRecord}

/-- Step 1: a parked channel (R54). -/
theorem resolveTarget_parked (h : s.parks[c].parked = true) :
    resolveTarget s c t = ⟨s.parks[c].level, s.parks[c].profile.getD (s.mapProfile c), .park, t.owner⟩ := by
  unfold resolveTarget firstStep
  rw [if_pos h]

/-- Step 2: a merged value, through the curve (R55). -/
theorem resolveTarget_live (h : s.parks[c].parked = false) {v : Level}
    (hv : mergedValue s.ports s.activeBank.map[c] t.owner = some v) :
    resolveTarget s c t =
      ⟨throughCurve s.activeBank.curves s.activeBank.map[c] v, s.mapProfile c, .live, t.owner⟩ := by
  unfold resolveTarget firstStep State.liveLevel
  rw [if_neg (Bool.eq_false_iff.mp h), hv, Option.map_some]

/-- Step 3: the fallback scene (R57). -/
theorem resolveTarget_scene (h : s.parks[c].parked = false)
    (hv : mergedValue s.ports s.activeBank.map[c] t.owner = none) {v : Level} {profile : Fin 16}
    (hf : s.fallbackLevel c = some (v, profile)) : resolveTarget s c t = ⟨v, profile, .scene, t.owner⟩ := by
  unfold resolveTarget firstStep State.liveLevel
  rw [if_neg (Bool.eq_false_iff.mp h), hv, Option.map_none, hf]

/-- Step 4: the channel holds (R56). -/
theorem resolveTarget_held (h : s.parks[c].parked = false)
    (hv : mergedValue s.ports s.activeBank.map[c] t.owner = none) (hf : s.fallbackLevel c = none) :
    resolveTarget s c t = ⟨t.level, s.mapProfile c, .held, t.owner⟩ := by
  unfold resolveTarget firstStep State.liveLevel
  rw [if_neg (Bool.eq_false_iff.mp h), hv, Option.map_none, hf]

end

/-- What a channel falls back on (R56, R57). -/
theorem fallbackLevel_asGiven (s : State) (c : Fin Config.channels) :
    (s.activeBank.map[c].hold = 1 ∨ s.config.fallback = none → s.fallbackLevel c = none) ∧
    (∀ f, s.activeBank.map[c].hold = 0 → s.config.fallback = some f →
      s.fallbackLevel c = some (s.scenes[f][c], profileId s.config.fallbackProfile.toNat)) := by
  unfold State.fallbackLevel
  refine ⟨?_, fun f hh hf => ?_⟩
  · rintro (hh | hf)
    · exact if_pos hh
    · rw [hf, Option.map_none, ite_self]
  · rw [hh, hf, if_neg (by decide), Option.map_some]

/-- Settles O21: the fields as read, each rule's merged value, and the first step that applies. -/
theorem resolutionTakesTheFirstStep : Obligations.ResolutionTakesTheFirstStep := by
  refine ⟨fields_readAsGiven, fun ports e owner => ?_, fun s c t => ⟨resolveTarget_parked, fun hp =>
    ⟨fun v hv => resolveTarget_live hp hv, fun hv =>
      ⟨fun hh => resolveTarget_held hp hv ((fallbackLevel_asGiven s c).1 hh),
        fun f hh hf => resolveTarget_scene hp hv ((fallbackLevel_asGiven s c).2 f hh hf)⟩⟩⟩⟩
  obtain ⟨h0, h1, h2, h3, h4, h5⟩ := mergedValue_asGiven ports e owner
  exact ⟨h0, h1, fun h v => by rw [h2 h, highest_eq_some], fun h v => by rw [h3 h, Option.or_eq_some_iff],
    fun h ho v => by rw [h4 h ho, Option.or_eq_some_iff], fun h ho v => by rw [h5 h ho, Option.or_eq_some_iff],
    fun _ _ => contribution_eq_some⟩

end Sys2Proof.Machine
end

section
/-! FORCE and RELEASE, and the writing of SCENES (O46, O41). -/

namespace Sys2Proof.Machine

/-! ## Answered requests on channels -/

/-- What the answer to a request leaves of the part (R134). -/
theorem OnlyAnswer.part {w t : State} (h : OnlyAnswer w t) :
    t.ports = w.ports ∧ t.targets = w.targets ∧ t.parks = w.parks ∧ t.scenes = w.scenes ∧ t.session = w.session ∧
      t.pointer = w.pointer ∧ t.activeBank = w.activeBank := by
  obtain ⟨hframe, -⟩ := h
  rw [hframe]
  exact ⟨rfl, rfl, rfl, rfl, rfl, rfl, rfl⟩

/-- What the receivers did before does not matter to what an answer leaves. -/
theorem OnlyAnswer.besideRx {v w t : State} (h : OnlyAnswer w t) (hv : v = { w with rx := v.rx }) : OnlyAnswer v t := by
  obtain ⟨hframe, hserves⟩ := h
  refine ⟨?_, hserves.congr ?_ ?_ ?_ ?_ ?_ ?_ rfl rfl rfl rfl rfl rfl⟩
  · rw [hframe, hv]
  all_goals rw [hv]
  · exact id

/-- See `OnlyAnswer.besideRx`. -/
theorem OnlyAnswerAndConditions.besideRx {v w t : State} (h : OnlyAnswerAndConditions w t)
    (hv : v = { w with rx := v.rx }) : OnlyAnswerAndConditions v t := by
  obtain ⟨hframe, hserves⟩ := h
  refine ⟨?_, hserves.congr ?_ ?_ ?_ ?_ ?_ ?_ rfl rfl rfl rfl rfl rfl⟩
  · rw [hframe, hv]
  all_goals rw [hv]
  · exact id

/-- A resolution that takes no channel into SCENE latches nothing (R57). -/
theorem resolutionLatches_nil {s t : State}
    (h : ∀ c : Fin Config.channels, t.targets[c].kind = .scene → s.targets[c].kind = .scene) :
    resolutionLatches s t = [] := by
  refine if_neg fun hs => ?_
  obtain ⟨c, hbefore, hafter⟩ := (enteredScene_iff _ _).mp hs
  exact hbefore (h c hafter)

/-! ## Operands of FORCE and RELEASE -/

theorem inRange_iff (first count : Nat) (c : Fin Config.channels) :
    inRange first count c = true ↔ first ≤ c.val ∧ c.val < first + count := by
  simp [inRange]

theorem rangeOk_iff (first count : BitVec 16) :
    rangeOk first count = true ↔ 1 ≤ count.toNat ∧ first.toNat + count.toNat ≤ 384 := by
  simp only [rangeOk, Bool.and_eq_true, decide_eq_true_eq]
  omega

/-- The profile of a FORCE: absent, or a profile id (R92, R214). -/
theorem forceProfile_ok {b : Byte} (h : b = 0xFF ∨ b.toNat ≤ 15) :
    ∃ p, forceProfile b = some p ∧ p.map Fin.val = (if b = 0xFF then none else some b.toNat) ∧
      ∀ m : Fin 16, (p.getD m).val = if b = 0xFF then m.val else b.toNat := by
  unfold forceProfile
  by_cases hb : b = 0xFF
  · simp only [if_pos hb]
    exact ⟨none, rfl, rfl, fun _ => rfl⟩
  · simp only [if_neg hb, dif_pos (show b.toNat < 16 by have := h.resolve_left hb; omega)]
    exact ⟨_, rfl, rfl, fun _ => rfl⟩

theorem forceProfile_bad {b : Byte} (h : b ≠ 0xFF) (h' : 15 < b.toNat) : forceProfile b = none := by
  unfold forceProfile
  rw [if_neg h, dif_neg (by omega)]

/-! ## FORCE -/

section

variable {h : RequestHeader} {first count : BitVec 16} {level : Level} {profile : Byte} {extra : List Byte} {s : State}

theorem exec_force (hs : s.inReset = false) :
    exec (.force h first count level profile extra) s =
      .next (onRequest .acts h 0x20 (bytes16 first ++ bytes16 count ++ bytes16 level ++ [profile] ++ extra)
        (guardReserved h (carryForce first count level profile)) s) := whenRunning_next hs

/-- FORCE outside its range is refused (R92, R134). -/
theorem force_refused (hres : h.reserved = 0)
    (he : Executes h 0x20 (bytes16 first ++ bytes16 count ++ bytes16 level ++ [profile] ++ extra) s)
    (hbad : count.toNat = 0 ∨ 384 < first.toNat + count.toNat ∨ (profile ≠ 0xFF ∧ 15 < profile.toNat)) :
    ∃ t, exec (.force h first count level profile extra) s = .next t ∧ Settled (rxOf h.port) s t ∧
      OnlyAnswer s t ∧ Answered h 0x20 .badArgument [] [] s t := by
  refine ⟨_, exec_force he.1, executed_same he ((if_pos hres).trans ?_)⟩
  unfold carryForce
  split
  · rename_i hrange
    rw [rangeOk_iff] at hrange
    obtain ⟨hp, hlong⟩ : profile ≠ 0xFF ∧ 15 < profile.toNat := by
      obtain h0 | h0 | h0 := hbad
      · omega
      · omega
      · exact h0
    rw [forceProfile_bad hp hlong]
    rfl
  · rfl

/-- A channel in the range of a FORCE is parked (R54, R93). -/
theorem parkRange_parked {p : Option (Fin 16)} {c : Fin Config.channels}
    (hc : inRange first.toNat count.toNat c = true) :
    let w := (parkRange first count ⟨true, level, p⟩ s).state
    w.parks[c] = ⟨true, level, p⟩ ∧
      w.targets[c] = ⟨level, p.getD (s.mapProfile c), .park, s.targets[c].owner⟩ := by
  intro w
  have hpark : w.parks[c] = ⟨true, level, p⟩ := (setParks_get _ _ _ s c).trans (if_pos hc)
  refine ⟨hpark, ?_⟩
  have hparked : w.parks[c].parked = true := by rw [hpark]
  rw [parkRange_target, if_pos hc, resolveTarget_parked hparked, hpark]
  rfl

/-- A channel outside the range of a FORCE or RELEASE is left alone (R59). -/
theorem parkRange_outside {p : ParkRecord} {c : Fin Config.channels} (hc : ¬ inRange first.toNat count.toNat c = true) :
    (parkRange first count p s).state.parks[c] = s.parks[c] ∧
      (parkRange first count p s).state.targets[c] = s.targets[c] :=
  ⟨(setParks_get _ _ _ s c).trans (if_neg hc), (parkRange_target first count p s c).trans (if_neg hc)⟩

/-- A FORCE takes no channel into SCENE, so it latches nothing (R57, R93). -/
theorem parkRange_parked_latches (p : Option (Fin 16)) : (parkRange first count ⟨true, level, p⟩ s).latches = [] := by
  refine resolutionLatches_nil fun c hscene => ?_
  by_cases hc : inRange first.toNat count.toNat c = true
  · have htarget := (parkRange_parked (level := level) (p := p) (s := s) hc).2
    rw [show (resolveQuiet _ _).targets[c] = _ from htarget] at hscene
    exact absurd hscene nofun
  · rwa [show (resolveQuiet _ _).targets[c] = _ from (parkRange_outside hc).2] at hscene

/-- FORCE within its range parks the channels (R54, R92, R93, R214). -/
theorem force_parks (hres : h.reserved = 0)
    (he : Executes h 0x20 (bytes16 first ++ bytes16 count ++ bytes16 level ++ [profile] ++ extra) s)
    (h1 : 1 ≤ count.toNat) (h2 : first.toNat + count.toNat ≤ 384) (hprofile : profile = 0xFF ∨ profile.toNat ≤ 15) :
    ∃ t, exec (.force h first count level profile extra) s = .next t ∧ Settled (rxOf h.port) s t ∧
      Answered h 0x20 .ok [] [] s t ∧ OnlyAnswer { s with parks := t.parks, targets := t.targets } t ∧
      ∀ c : Fin Config.channels,
        if first.toNat ≤ c.val ∧ c.val < first.toNat + count.toNat then
          t.parks[c].parked = true ∧ t.parks[c].level = level ∧
          t.parks[c].profile.map Fin.val = (if profile = 0xFF then none else some profile.toNat) ∧
          t.targets[c].level = level ∧ t.targets[c].kind = .park ∧ t.targets[c].owner = s.targets[c].owner ∧
          t.targets[c].profile.val =
            (if profile = 0xFF then s.activeBank.map[c].profile.toNat % 16 else profile.toNat)
        else t.parks[c] = s.parks[c] ∧ t.targets[c] = s.targets[c] := by
  obtain ⟨p, hp, hrecord, hused⟩ := forceProfile_ok hprofile
  set w := parkRange first count ⟨true, level, p⟩ (settle (rxOf h.port) s)
  have hcarry : guardReserved h (carryForce first count level profile) (settle (rxOf h.port) s) = w := by
    rw [guardReserved, if_pos hres, carryForce, if_pos ((rangeOk_iff _ _).mpr ⟨h1, h2⟩), hp]
  obtain ⟨hsettled, honly, hanswered⟩ :=
    executed_plain (form := .acts) he hcarry (parkRange_parked_latches p) rfl rfl rfl rfl
  refine ⟨_, exec_force he.1, hsettled, hanswered, honly.besideRx ?_, fun c => ?_⟩
  · obtain ⟨-, htargets, hparks, -⟩ := honly.part
    rw [hparks, htargets]
    rfl
  · obtain ⟨-, htargets, hparks, -⟩ := honly.part
    rw [htargets, hparks]
    split
    · rename_i hc
      obtain ⟨hpark, htarget⟩ :=
        parkRange_parked (level := level) (p := p) (s := settle (rxOf h.port) s) ((inRange_iff _ _ c).mpr hc)
      rw [show w.state.parks[c] = _ from hpark, show w.state.targets[c] = _ from htarget]
      exact ⟨rfl, rfl, hrecord, rfl, rfl, rfl, hused _⟩
    · rename_i hc
      exact parkRange_outside (mt (inRange_iff _ _ c).mp hc)

end

/-! ## RELEASE -/

section

variable {h : RequestHeader} {first count : BitVec 16} {extra : List Byte} {s : State}

theorem exec_release (hs : s.inReset = false) :
    exec (.release h first count extra) s =
      .next (onRequest .acts h 0x21 (bytes16 first ++ bytes16 count ++ extra)
        (guardReserved h (carryRelease first count)) s) := whenRunning_next hs

/-- RELEASE outside its range is refused (R95, R134). -/
theorem release_refused (hres : h.reserved = 0) (he : Executes h 0x21 (bytes16 first ++ bytes16 count ++ extra) s)
    (hbad : count.toNat = 0 ∨ 384 < first.toNat + count.toNat) :
    ∃ t, exec (.release h first count extra) s = .next t ∧ Settled (rxOf h.port) s t ∧
      OnlyAnswer s t ∧ Answered h 0x21 .badArgument [] [] s t := by
  have hrange : ¬ rangeOk first count = true := by rw [rangeOk_iff]; omega
  exact ⟨_, exec_release he.1, executed_same he ((if_pos hres).trans (if_neg hrange))⟩

end

/-- The kinds a resolution latches are FALLBACK alone, when a channel enters SCENE (R57). -/
theorem resolutionLatches_eq (s t : State) :
    (EntersScene s t → resolutionLatches s t = [.fallback]) ∧ (¬ EntersScene s t → resolutionLatches s t = []) := by
  unfold resolutionLatches EntersScene
  rw [← enteredScene_iff]
  exact ⟨fun h => if_pos h, fun h => if_neg h⟩

/-- A request carried out on channels that latches what its resolution does: its answer, and the conditions it leaves (R57,
R134, R183). -/
theorem finishRequest_resolved (h : RequestHeader) (code : Byte) {s w : State} (hnode : w.node = s.node)
    (hbank : w.activeBank = s.activeBank) (hconditions : w.conditions = s.conditions) (hreplay : w.replay = s.replay) :
    let t := finishRequest h code ⟨w, .ok, [], resolutionLatches s w⟩
    (∃ more, Answered h code .ok [] more s t ∧ more.length ≤ 1 ∧
      ∀ e ∈ more, ∃ y, e = (.notice s.node .fallback y, .a)) ∧
    (∀ k, hasKind t.latched k = true ↔ hasKind s.latched k = true ∨ (k = .fallback ∧ EntersScene s w)) ∧
    (EntersScene s w → t.conditions = s.conditions.carried s [.fallback]
      [(.reply ⟨s.node, h.tag, code, .ok, t.summaryByte, []⟩, h.port)]) ∧
    (¬ EntersScene s w → t.conditions = s.conditions.carried s []
      [(.reply ⟨s.node, h.tag, code, .ok, t.summaryByte, []⟩, h.port)]) := by
  obtain ⟨henters, hstays⟩ := resolutionLatches_eq s w
  have hmem : ∀ k, k ∈ resolutionLatches s w ↔ k = .fallback ∧ EntersScene s w := by
    intro k
    by_cases hs : EntersScene s w
    · rw [henters hs]; simp [hs]
    · rw [hstays hs]; simp [hs]
  have hshort : (resolutionLatches s w).length ≤ 1 ∧ (resolutionLatches s w).Nodup := by
    by_cases hs : EntersScene s w
    · rw [henters hs]; decide
    · rw [hstays hs]; decide
  generalize resolutionLatches s w = ks at *
  intro t
  obtain ⟨more, hentries, hmore, hnotices, hrecord⟩ := finishRequest_answered h code ⟨w, .ok, [], ks⟩
  have hcarried := finishRequest_conditions (s := s) (c := ⟨w, .ok, [], ks⟩) h code hshort.2 hnode hbank
  rw [finishRequest_reply] at hentries hrecord hcarried
  simp only [hnode, hreplay, hconditions] at hentries hnotices hrecord hcarried
  have hqueue : entries w.queue = entries s.queue := congrArg Conditions.entries hconditions
  have hlatched : w.latched = s.latched := congrArg Conditions.latched hconditions
  refine ⟨⟨more, ⟨by rw [← hqueue]; exact hentries, hrecord⟩, hmore.trans hshort.1, fun e hm => ?_⟩, fun k => ?_,
    fun hs => ?_, fun hs => ?_⟩
  · obtain ⟨k, hk, y, rfl⟩ := hnotices e hm
    obtain ⟨rfl, -⟩ := (hmem k).mp hk
    exact ⟨y, rfl⟩
  · rw [show t.latched = _ from (finishRequest_latched h code ⟨w, .ok, [], ks⟩).1, latchFlags_hasKind, hlatched,
      Bool.or_eq_true, decide_eq_true_eq]
    exact or_congr Iff.rfl (hmem k)
  · rw [← henters hs]; exact hcarried
  · rw [← hstays hs]; exact hcarried

/-- Settles O46: FORCE and RELEASE replace the park records of their range and resolve its channels; a parked channel is
not in SCENE, a released one may enter it. -/
theorem parksAndReleases : Obligations.ParksAndReleases := by
  refine ⟨fun h first count level profile extra s hres he => ⟨force_parks hres he, force_refused hres he⟩,
    fun h first count extra s hres he => ⟨fun h1 h2 => ?_, release_refused hres he⟩⟩
  set w := (parkRange first count .reset (settle (rxOf h.port) s)).state
  have hexec : exec (.release h first count extra) s =
      .next (finishRequest h 0x21 ⟨w, .ok, [], resolutionLatches s w⟩) := by
    rw [exec_release he.1, onRequest_executed he, guardReserved, if_pos hres, carryRelease,
      if_pos ((rangeOk_iff _ _).mpr ⟨h1, h2⟩)]
    rfl
  obtain ⟨⟨more, hanswered, hmore, hnotices⟩, hlatched, henters, hstays⟩ :=
    finishRequest_resolved h 0x21 (s := s) (w := w) rfl rfl rfl rfl
  obtain ⟨hrx, hports, hparks, htargets, hscenes, -, -, -, -, hbank⟩ :=
    finishRequest_part h 0x21 ⟨w, .ok, [], resolutionLatches s w⟩
  have honly := finishRequest_only h 0x21 ⟨w, .ok, [], resolutionLatches s w⟩
  generalize finishRequest h 0x21 ⟨w, .ok, [], resolutionLatches s w⟩ = t at *
  have hscene : EntersScene s t ↔ EntersScene s w := by unfold EntersScene; rw [htargets]
  refine ⟨t, more, hexec, (settle_settled _ s).of_rx hrx, hanswered, hmore, hnotices, honly.besideRx ?_, ?_,
    ?_, fun c => ?_⟩
  · rw [hparks, htargets]
    rfl
  · rw [hscene]; exact hlatched
  · unfold CarriedWithFallback
    rw [hscene]
    exact ⟨henters, hstays⟩
  · rw [htargets, hparks]
    split
    · rename_i hc
      have hc := (inRange_iff _ _ c).mpr hc
      refine ⟨(setParks_get _ _ _ _ c).trans (if_pos hc), ?_⟩
      exact ((parkRange_target _ _ _ _ c).trans (if_pos hc)).trans
        (resolveTarget_congr hparks hports hbank hscenes c _).symm
    · rename_i hc
      exact parkRange_outside (mt (inRange_iff _ _ c).mp hc)

/-! ## Writing SCENES -/

theorem length_chunks (size n : Nat) (l : List Byte) : (chunks size n l).length = n := by
  induction n generalizing l with
  | zero => rfl
  | succ n ih => rw [chunks, List.length_cons, ih]

/-- The entries of SCENES are its levels (R99, R150). -/
theorem levels_of_chunks (levels : List Level) :
    (chunks 2 levels.length (bytesOfHalves levels)).map (fun e => pair (byteAt e 0) (byteAt e 1)) = levels := by
  induction levels with
  | nil => rfl
  | cons v levels ih => exact congrArg₂ _ (pair_extract v) ih

/-- The starting index of a WRITE_TABLE: its own, or the write pointer's (R159, R214). -/
theorem startIndex_eq {tbl : TableName} {index : BitVec 16} {pointer : WritePointer} {start : Nat}
    (h : (start = index.toNat ∧ index ≠ 0xFFFF) ∨ (index = 0xFFFF ∧ pointer = ⟨tbl, start⟩)) (hs : start < tbl.entries) :
    startIndex tbl index pointer = some start := by
  unfold startIndex
  obtain ⟨rfl, hi⟩ | ⟨hi, rfl⟩ := h
  · rw [if_neg hi, if_pos hs]
  · rw [if_pos hi, if_pos rfl]

/-- A WRITE_TABLE of the owner in OPEN that passes its checks (R157 to R159). -/
theorem carryWrite_ok {o : SessionOwner} {tbl : TableName} {index : BitVec 16} {count : Byte} {bytes : List Byte}
    {s : State} {n start : Nat} (ho : s.session = .opened o n) (h1 : 1 ≤ count.toNat) (h2 : count.toNat ≤ tbl.perRequest)
    (h3 : bytes.length = count.toNat * tbl.entrySize)
    (h4 : (start = index.toNat ∧ index ≠ 0xFFFF) ∨ (index = 0xFFFF ∧ s.pointer = ⟨tbl, start⟩))
    (h5 : start < tbl.entries) :
    carryWrite o tbl.code index count bytes s = writeCarried o tbl start (chunks tbl.entrySize count.toNat bytes) s := by
  have hrefusal : sessionRefusal o s = none := by
    unfold sessionRefusal
    rw [ho]
    exact if_pos rfl
  have htable : TableName.ofCode tbl.code = some tbl := by cases tbl <;> rfl
  unfold carryWrite
  rw [hrefusal]
  dsimp only
  rw [htable]
  dsimp only
  rw [if_neg (by omega), startIndex_eq h4 h5]

/-- A write to the scenes takes no channel into SCENE, so it latches nothing (R57, R98). -/
theorem sceneWritten_latches (written : Fin 4 → Fin Config.channels → Bool) (s : State)
    (x : Vector (Vector Level Config.channels) 4) :
    resolutionLatches s (sceneWritten written { s with scenes := x }) = [] := by
  refine resolutionLatches_nil fun c hafter => ?_
  have htarget := sceneWritten_target written { s with scenes := x } c
  split at htarget
  · rename_i hwritten
    obtain ⟨_, -, hkind, -⟩ := hwritten
    exact hkind
  · rwa [htarget] at hafter

/-- The state that a write of levels to SCENES leaves, before its answer (R98, R99, R159, R161). -/
def scenesWritten (o : SessionOwner) (start : Nat) (levels : List Level) (s : State) : State :=
  { sceneWritten (sceneEntryWritten start levels.length) { s with scenes := writeScenes start levels s.scenes } with
    pointer := ⟨.scenes, (start + levels.length) % 1536⟩
    session := .opened o s.sessionExpiry }

theorem writeCarried_scenes (o : SessionOwner) (start : Nat) (levels : List Level) (s : State) :
    writeCarried o .scenes start (chunks 2 levels.length (bytesOfHalves levels)) s =
      ⟨scenesWritten o start levels s, .ok, 4 :: bytes16 (BitVec.ofNat 16 ((start + levels.length) % 1536)), []⟩ := by
  have hlatches := sceneWritten_latches (sceneEntryWritten start levels.length) s (writeScenes start levels s.scenes)
  simp only [writeCarried, writeEntries, levels_of_chunks, length_chunks, hlatches]
  rfl

/-- A WRITE_TABLE on SCENES of the owner in OPEN is carried out and answered (R98, R99, R159). -/
theorem exec_writeScenes {h : RequestHeader} {token index : BitVec 16} {count : Byte} {levels : List Level} {s : State}
    {n start : Nat} (hres : h.reserved = 0)
    (he : Executes h 0x11 (bytes16 token ++ [4] ++ bytes16 index ++ [count] ++ bytesOfHalves levels) s)
    (ho : s.session = .opened ⟨h.port, token⟩ n) (h1 : 1 ≤ count.toNat) (h2 : count.toNat ≤ 64)
    (hl : levels.length = count.toNat)
    (h4 : (start = index.toNat ∧ index ≠ 0xFFFF) ∨ (index = 0xFFFF ∧ s.pointer = ⟨.scenes, start⟩)) (h5 : start < 1536) :
    ∃ t, exec (.writeTable h token 4 index count (bytesOfHalves levels)) s = .next t ∧ Settled (rxOf h.port) s t ∧
      OnlyAnswer (scenesWritten ⟨h.port, token⟩ start levels (settle (rxOf h.port) s)) t ∧
      Answered h 0x11 .ok (4 :: bytes16 (BitVec.ofNat 16 ((start + count.toNat) % 1536))) [] s t := by
  have hcarry : guardReserved h (carryWrite ⟨h.port, token⟩ 4 index count (bytesOfHalves levels))
      (settle (rxOf h.port) s) = ⟨scenesWritten ⟨h.port, token⟩ start levels (settle (rxOf h.port) s), .ok,
        4 :: bytes16 (BitVec.ofNat 16 ((start + count.toNat) % 1536)), []⟩ := by
    have hwrite := carryWrite_ok (tbl := .scenes) (s := settle (rxOf h.port) s) (bytes := bytesOfHalves levels) ho h1 h2
      (by rw [length_bytesOfHalves, hl]; exact Nat.mul_comm _ _) h4 h5
    rw [guardReserved, if_pos hres, ← hl, ← writeCarried_scenes, hl]
    exact hwrite
  exact ⟨_, whenRunning_next he.1, executed_plain (form := .ignored) he hcarry rfl rfl rfl rfl rfl⟩

/-- Settles O41: the levels are written one entry after another, and a channel in SCENE whose entry was not written stays
what its resolution gives. -/
theorem scenesAreWrittenAtOnce : Obligations.ScenesAreWrittenAtOnce := by
  intro h token index count levels s n start hres he ho h1 h2 hl h4 h5 hresolved
  obtain ⟨t, hexec, hsettled, honly, hanswered⟩ := exec_writeScenes hres he ho h1 h2 hl h4 h5
  obtain ⟨hports, htargets, hparks, hscenes, hsession, hpointer, hbank⟩ := honly.part
  refine ⟨t, hexec, hsettled, hanswered, fun k v hv f c hfc => ?_, fun f c hfc => ?_, fun c => ?_, hpointer.trans ?_,
    hsession, honly.besideRx ?_⟩
  · rw [hscenes]
    exact writeScenes_at (by omega) hv hfc
  · rw [hscenes]
    exact writeScenes_other (by rwa [hl])
  · obtain ⟨hscene, hother⟩ := sceneWritten_resolves (s := settle (rxOf h.port) s)
      (fun f => writeScenes_unwritten (start := start) (es := levels)) (hresolved c)
    rw [htargets]
    split
    · rename_i hkind
      exact (hscene hkind).trans (resolveTarget_congr hparks hports hbank hscenes c _).symm
    · rename_i hkind
      exact hother hkind
  · rw [← hl]; rfl
  · rw [hscenes, htargets, hsession, hpointer]
    rfl

end Sys2Proof.Machine
end

section
/-! The steps of the three kinds of profile (O24 to O27). -/

namespace Sys2Proof.Machine

/-! ## Position, aim and distance -/

namespace FadeContext

variable {x : FadeContext}

theorem distance_eq (x : FadeContext) : x.distance = max x.aim x.position - min x.aim x.position := by
  unfold distance; omega

theorem distance_of_below (h : x.position < x.aim) : x.distance = x.aim - x.position := by
  unfold distance; omega

theorem distance_of_above (h : x.aim < x.position) : x.distance = x.position - x.aim := by
  unfold distance; omega

theorem toward_of_below (h : x.position < x.aim) : x.toward = .up := if_pos h

theorem toward_of_above (h : x.aim < x.position) : x.toward = .down := if_neg (by omega)

theorem movedToward_of_below (h : x.position < x.aim) (v : Nat) : x.movedToward v = x.position + v := if_pos h

theorem movedToward_of_above (h : x.aim < x.position) (v : Nat) : x.movedToward v = x.position - v :=
  if_neg (by omega)

/-- Ahead or at the position, for each direction (section 4.3). -/
theorem aheadOrAt_iff : x.aheadOrAt = true ↔
    (x.direction = .up → x.position ≤ x.aim) ∧ (x.direction = .down → x.aim ≤ x.position) := by
  unfold aheadOrAt
  cases x.direction <;> simp

/-- A channel that heads toward its aim has it ahead. -/
theorem aheadOrAt_of_toward (h : x.direction = x.toward) : x.aheadOrAt = true := by
  rw [aheadOrAt_iff, h]
  unfold toward
  split <;> simp <;> omega

/-- A position is at most `v` from that of the channel, and lies between it and the aim. -/
def Approaches (x : FadeContext) (v p : Nat) : Prop :=
  p ≤ x.position + v ∧ x.position ≤ p + v ∧ min x.position x.aim ≤ p ∧ p ≤ max x.position x.aim

theorem approaches_self (x : FadeContext) (v : Nat) : x.Approaches v x.position := by
  unfold Approaches; omega

theorem approaches_aim {v : Nat} (h : x.distance ≤ v) : x.Approaches v x.aim := by
  unfold distance at h; unfold Approaches; omega

theorem approaches_movedToward {v : Nat} (h : v ≤ x.distance) : x.Approaches v (x.movedToward v) := by
  unfold distance at h; unfold Approaches movedToward
  split <;> omega

theorem Approaches.mono {v w p : Nat} (h : x.Approaches v p) (hvw : v ≤ w) : x.Approaches w p := by
  unfold Approaches at *; omega

end FadeContext

/-! ## The step of each kind of profile -/

section

variable {r : ProfileRecord} (x : FadeContext)

/-- R72. -/
theorem profileStep_snap (h : r.kind = 0) : profileStep r x = x.arrived := by
  simp [profileStep, ProfileKind.ofCode, h, snapStep]

/-- R73. -/
theorem profileStep_slew (h : r.kind = 1) : profileStep r x = slewStep r x := by
  simp [profileStep, ProfileKind.ofCode, h]

/-- R75 to R82. -/
theorem profileStep_ramp (h : r.kind = 2) : profileStep r x = rampStep r x := by
  simp [profileStep, ProfileKind.ofCode, h]

end

/-- What a verified RAMP profile has: its rates at most Rm, and nothing 0 that would leave a channel standing (R168). -/
structure ProfileRecord.RampSound (r : ProfileRecord) : Prop where
  maxRate : 1 ≤ r.maxRate.toNat
  floorRate : 1 ≤ r.floorRate.toNat
  floor_le : r.floorRate.toNat ≤ r.maxRate.toNat
  start_le : r.startRate.toNat ≤ r.maxRate.toNat
  accel : ∀ v, 1 ≤ accelFor r v
  decel : ∀ v, 1 ≤ decelFor r v

theorem firstFailed_eq_none {l : List (Bool × FailureReason)} : firstFailed l = none ↔ ∀ e ∈ l, e.1 = false := by
  induction l with
  | nil => simp [firstFailed]
  | cons e l ih =>
    obtain ⟨failed, reason⟩ := e
    cases failed <;> simp [firstFailed, ih]

theorem ProfileKind.ofCode_cases (c : Byte) :
    (c = 0 ∧ ofCode c = some .snap) ∨ (c = 1 ∧ ofCode c = some .slew) ∨ (c = 2 ∧ ofCode c = some .ramp) ∨
      ofCode c = none := by
  unfold ofCode
  by_cases h0 : c = 0
  · exact .inl ⟨h0, if_pos h0⟩
  · by_cases h1 : c = 1
    · exact .inr (.inl ⟨h1, (if_neg h0).trans (if_pos h1)⟩)
    · by_cases h2 : c = 2
      · exact .inr (.inr (.inl ⟨h2, by rw [if_neg h0, if_neg h1, if_pos h2]⟩))
      · exact .inr (.inr (.inr (by rw [if_neg h0, if_neg h1, if_neg h2])))

/-- The kinds of a verified profile, with what its rates then are (R168). -/
theorem checkProfile_eq_none {r : ProfileRecord} (h : checkProfile r = none) :
    r.kind = 0 ∨ (r.kind = 1 ∧ 1 ≤ r.maxRate.toNat) ∨ (r.kind = 2 ∧ r.RampSound) := by
  have hpos : ∀ {n} {b : BitVec n}, b ≠ 0 → 1 ≤ b.toNat := fun hb =>
    Nat.pos_of_ne_zero fun h0 => hb (BitVec.eq_of_toNat_eq (by simpa using h0))
  unfold checkProfile at h
  obtain ⟨hk, -⟩ | ⟨hk, hkind⟩ | ⟨hk, hkind⟩ | hkind := ProfileKind.ofCode_cases r.kind
  · exact .inl hk
  · obtain ⟨hmax, -⟩ : r.maxRate ≠ 0 ∧ r.reserved1 = 0 ∧ r.reserved22 = 0 := by
      simpa [hkind, firstFailed_eq_none] using h
    exact .inr (.inl ⟨hk, hpos hmax⟩)
  · obtain ⟨hmax, ⟨hfloor, hfloorLe⟩, hstart, -, ⟨haccelLow, haccelHigh⟩, ⟨hdecelLow, hdecelHigh⟩, -⟩ :
        r.maxRate ≠ 0 ∧ (r.floorRate ≠ 0 ∧ r.floorRate.toNat ≤ r.maxRate.toNat) ∧
        r.startRate.toNat ≤ r.maxRate.toNat ∧ r.breakRate.toNat ≤ r.maxRate.toNat ∧
        (r.accelLow ≠ 0 ∧ r.accelHigh ≠ 0) ∧ (r.decelLow ≠ 0 ∧ r.decelHigh ≠ 0) ∧
        r.reserved1 = 0 ∧ r.reserved22 = 0 := by
      simpa [hkind, firstFailed_eq_none] using h
    refine .inr (.inr ⟨hk, hpos hmax, hpos hfloor, hfloorLe, hstart, fun v => ?_, fun v => ?_⟩)
    · unfold accelFor; split
      · exact hpos haccelLow
      · exact hpos haccelHigh
    · unfold decelFor; split
      · exact hpos hdecelLow
      · exact hpos hdecelHigh
  · simp [hkind] at h

/-! ## SLEW -/

section

variable {r : ProfileRecord} {x : FadeContext}

theorem slewStep_rests (h : x.aim = x.position) : slewStep r x = { x with rate := 0, phase := .idle } := if_pos h

theorem slewStep_arrives (h : x.aim ≠ x.position) (hr : x.distance ≤ r.maxRate.toNat) :
    slewStep r x = { x.arrived with direction := x.toward } := by
  unfold slewStep
  rw [if_neg h, if_pos hr]

theorem slewStep_moves (h : r.maxRate.toNat < x.distance) :
    slewStep r x = { x with
      position := x.movedToward r.maxRate.toNat
      rate := r.maxRate.toNat
      direction := x.toward
      phase := .moving } := by
  have hne : x.aim ≠ x.position := by unfold FadeContext.distance at h; omega
  unfold slewStep
  rw [if_neg hne, if_neg (by omega)]

theorem slewStep_approaches (r : ProfileRecord) (x : FadeContext) :
    x.Approaches r.maxRate.toNat (slewStep r x).position := by
  by_cases h : x.aim = x.position
  · rw [slewStep_rests h]; exact x.approaches_self _
  · by_cases hr : x.distance ≤ r.maxRate.toNat
    · rw [slewStep_arrives h hr]; exact FadeContext.approaches_aim hr
    · rw [slewStep_moves (by omega)]; exact FadeContext.approaches_movedToward (by omega)

end

/-- Settles O24: the three outcomes of the SLEW step, on either side of the aim. -/
theorem slewMovesAtMaxRate : Obligations.SlewMovesAtMaxRate := by
  intro r x hk
  rw [profileStep_slew x hk]
  refine ⟨slewStep_rests, fun h => ?_, fun h => ?_⟩
  · have hD := FadeContext.distance_of_below h
    split
    · rw [slewStep_arrives (by omega) (by omega), FadeContext.toward_of_below h]; rfl
    · rw [slewStep_moves (by omega), FadeContext.toward_of_below h, FadeContext.movedToward_of_below h]
  · have hD := FadeContext.distance_of_above h
    split
    · rw [slewStep_arrives (by omega) (by omega), FadeContext.toward_of_above h]; rfl
    · rw [slewStep_moves (by omega), FadeContext.toward_of_above h, FadeContext.movedToward_of_above h]

/-! ## RAMP: the MOVING step -/

section

variable {r : ProfileRecord} {x : FadeContext}

/-- The new rate keeps a bound of the rate before it, Rf and Rm (R77). -/
theorem movingRate_le {v D n : Nat} (hv : v ≤ n) (hfloor : r.floorRate.toNat ≤ n) (hmax : r.maxRate.toNat ≤ n) :
    movingRate r v D ≤ n := by
  unfold movingRate
  split
  · omega
  · split <;> omega

/-- Under a verified profile a moving channel moves (R77, R83). -/
theorem ProfileRecord.RampSound.movingRate_pos (h : r.RampSound) (v D : Nat) : 1 ≤ movingRate r v D := by
  obtain ⟨hmax, hfloor, -, -, haccel, -⟩ := h
  have := haccel v
  unfold movingRate
  split
  · omega
  · split <;> omega

theorem movingStep_arrives (h : x.distance ≤ movingRate r x.rate x.distance) : movingStep r x = x.arrived :=
  if_pos h

theorem movingStep_moves (h : movingRate r x.rate x.distance < x.distance) :
    movingStep r x = { x with
      position := x.movedToward (movingRate r x.rate x.distance)
      rate := movingRate r x.rate x.distance
      phase := .moving } := if_neg (by omega)

theorem movingStep_approaches (r : ProfileRecord) (x : FadeContext) :
    x.Approaches (movingRate r x.rate x.distance) (movingStep r x).position := by
  by_cases h : x.distance ≤ movingRate r x.rate x.distance
  · rw [movingStep_arrives h]; exact FadeContext.approaches_aim h
  · rw [movingStep_moves (by omega)]; exact FadeContext.approaches_movedToward (by omega)

end

/-! ## RAMP: which step is taken -/

/-- The context with which the RAMP step takes the MOVING step: at rest it starts toward the aim at Rs, in motion its rate is
clamped to Rm (R76, R78, R82). -/
def FadeContext.underway (r : ProfileRecord) (x : FadeContext) : FadeContext :=
  if x.phase = .idle then { x with phase := .moving, direction := x.toward, rate := r.startRate.toNat }
  else { x with phase := .moving, rate := min x.rate r.maxRate.toNat }

/-- The context with which the RAMP step takes the REVERSING step (R78, R82). -/
def FadeContext.braking (r : ProfileRecord) (x : FadeContext) : FadeContext :=
  { x with rate := min x.rate r.maxRate.toNat, phase := .reversing }

section

variable {r : ProfileRecord} {x : FadeContext}

theorem FadeContext.underway_idle (h : x.phase = .idle) :
    x.underway r = { x with phase := .moving, direction := x.toward, rate := r.startRate.toNat } := if_pos h

theorem FadeContext.underway_inMotion (h : x.phase ≠ .idle) :
    x.underway r = { x with phase := .moving, rate := min x.rate r.maxRate.toNat } := if_neg h

@[simp] theorem FadeContext.underway_position : (x.underway r).position = x.position := by unfold underway; split <;> rfl
@[simp] theorem FadeContext.underway_aim : (x.underway r).aim = x.aim := by unfold underway; split <;> rfl
@[simp] theorem FadeContext.underway_profile : (x.underway r).profile = x.profile := by unfold underway; split <;> rfl

@[simp] theorem FadeContext.underway_distance : (x.underway r).distance = x.distance := by simp [distance]

/-- The rate of a MOVING step is at most Rm where Rs is (R82). -/
theorem FadeContext.underway_rate_le {n : Nat} (hstart : r.startRate.toNat ≤ n) (hmax : r.maxRate.toNat ≤ n) :
    (x.underway r).rate ≤ n := by
  unfold underway; split
  · exact hstart
  · exact (Nat.min_le_right _ _).trans hmax

/-- A channel at rest takes the MOVING step toward its aim, and one in motion takes it with its aim ahead (R76, R78). -/
theorem FadeContext.underway_aheadOrAt (h : x.phase = .idle ∨ x.aheadOrAt = true) : (x.underway r).aheadOrAt = true := by
  by_cases hi : x.phase = .idle
  · rw [underway_idle hi]; exact aheadOrAt_of_toward rfl
  · rw [underway_inMotion hi]; exact h.resolve_left hi

theorem FadeContext.approaches_underway {v p : Nat} (h : (x.underway r).Approaches v p) : x.Approaches v p := by
  simpa [Approaches] using h

/-- R76. -/
theorem rampStep_rests (hi : x.phase = .idle) (h : x.position = x.aim) : rampStep r x = { x with rate := 0 } := by
  simp [rampStep, hi, h]

/-- R76, R78. -/
theorem rampStep_moves_idle (hi : x.phase = .idle) (h : x.position ≠ x.aim) :
    rampStep r x = movingStep r (x.underway r) := by
  rw [FadeContext.underway_idle hi]
  simp [rampStep, hi, h.symm, FadeContext.toward]

/-- R78. -/
theorem rampStep_moves_inMotion (hi : x.phase ≠ .idle) (h : x.aheadOrAt = true) :
    rampStep r x = movingStep r (x.underway r) := by
  rw [FadeContext.underway_inMotion hi]
  unfold rampStep
  cases hp : x.phase with
  | idle => exact absurd hp hi
  | moving => exact if_pos h
  | reversing => exact if_pos h

/-- R78. -/
theorem rampStep_brakes (hi : x.phase ≠ .idle) (h : x.aheadOrAt = false) :
    rampStep r x = reversingStep r (x.braking r) := by
  have hb : ¬ x.aheadOrAt = true := by rw [h]; nofun
  unfold rampStep
  cases hp : x.phase with
  | idle => exact absurd hp hi
  | moving => exact if_neg hb
  | reversing => exact if_neg hb

/-- The three things a RAMP step can be (R76, R78). -/
theorem rampStep_cases (r : ProfileRecord) (x : FadeContext) :
    (x.phase = .idle ∧ x.position = x.aim ∧ rampStep r x = { x with rate := 0 }) ∨
    ((x.phase = .idle ∨ x.aheadOrAt = true) ∧ rampStep r x = movingStep r (x.underway r)) ∨
    (x.phase ≠ .idle ∧ x.aheadOrAt = false ∧ rampStep r x = reversingStep r (x.braking r)) := by
  by_cases hi : x.phase = .idle
  · by_cases h : x.position = x.aim
    · exact .inl ⟨hi, h, rampStep_rests hi h⟩
    · exact .inr (.inl ⟨.inl hi, rampStep_moves_idle hi h⟩)
  · cases h : x.aheadOrAt with
    | true => exact .inr (.inl ⟨.inr rfl, rampStep_moves_inMotion hi h⟩)
    | false => exact .inr (.inr ⟨hi, rfl, rampStep_brakes hi h⟩)

end

/-- Settles O25: such a channel takes the MOVING step, with the rate `w` of it. -/
theorem rampMoves : Obligations.RampMoves := by
  intro r x v D d a w hk hidle hmotion hD hd ha hw
  have hstep : profileStep r x = movingStep r (x.underway r) := by
    rw [profileStep_ramp x hk]
    by_cases hi : x.phase = .idle
    · exact rampStep_moves_idle hi (hidle hi).1
    · exact rampStep_moves_inMotion hi (FadeContext.aheadOrAt_iff.mpr (hmotion hi).2)
  have hrate : (x.underway r).rate = v := by
    by_cases hi : x.phase = .idle
    · rw [FadeContext.underway_idle hi]; exact (hidle hi).2.symm
    · rw [FadeContext.underway_inMotion hi]; exact (hmotion hi).1.symm
  have hdistance : (x.underway r).distance = D := by rw [FadeContext.underway_distance, hD, x.distance_eq]
  have hdirection : (x.underway r).direction =
      if x.phase = .idle then (if x.position < x.aim then .up else .down) else x.direction := by
    unfold FadeContext.underway; split <;> rfl
  have hmoving : movingRate r (x.underway r).rate (x.underway r).distance = w := by
    rw [hrate, hdistance, hw]
    unfold movingRate decelFor accelFor
    rw [← hd, ← ha, Nat.max_def, Nat.min_def]
    split_ifs <;> omega
  rw [hstep, ← hdirection]
  obtain h | h := Nat.lt_or_ge w D
  · rw [movingStep_moves (by rw [hmoving, hdistance]; exact h), hmoving]
    exact ⟨rfl, FadeContext.underway_aim, FadeContext.underway_profile, fun h' => absurd h (by omega),
      fun _ => ⟨by simp [FadeContext.movedToward], rfl, rfl⟩⟩
  · rw [movingStep_arrives (by rw [hmoving, hdistance]; exact h)]
    exact ⟨rfl, FadeContext.underway_aim, FadeContext.underway_profile, fun _ => ⟨FadeContext.underway_aim, rfl, rfl⟩,
      fun h' => absurd h (by omega)⟩

/-! ## RAMP: the REVERSING step -/

/-- A braking channel goes on in its direction by less than its rate, within the range of positions; and there it turns, or
brakes on (R79, R80). -/
theorem reversingStep_brakes (r : ProfileRecord) {x : FadeContext} (h : x.position ≤ Config.maxPosition) :
    ∃ p, p ≤ Config.maxPosition ∧ p ≤ x.position + x.rate ∧ x.position ≤ p + x.rate ∧
      (x.direction = .up → x.position ≤ p) ∧ (x.direction = .down → p ≤ x.position) ∧
      (reversingStep r x = turned r { x with position := p } ∨
        decelFor r x.rate < x.rate ∧ reversingStep r x =
          { x with position := p, rate := x.rate - decelFor r x.rate, phase := .reversing }) := by
  unfold reversingStep
  dsimp only
  by_cases hv : x.rate ≤ decelFor r x.rate
  · exact ⟨x.position, h, by omega, by omega, fun _ => le_rfl, fun _ => le_rfl, .inl (if_pos hv)⟩
  rw [if_neg hv]
  cases hd : x.direction with
  | up =>
    dsimp only
    by_cases he : x.position + (x.rate - decelFor r x.rate) > Config.maxPosition
    · exact ⟨_, le_rfl, by omega, by omega, fun _ => h, nofun, .inl (if_pos he)⟩
    · exact ⟨_, by omega, by omega, by omega, fun _ => Nat.le_add_right _ _, nofun, .inr ⟨by omega, if_neg he⟩⟩
  | down =>
    dsimp only
    by_cases he : x.position < x.rate - decelFor r x.rate
    · exact ⟨0, by omega, by omega, by omega, nofun, fun _ => by omega, .inl (if_pos he)⟩
    · exact ⟨_, by omega, by omega, by omega, nofun, fun _ => by omega, .inr ⟨by omega, if_neg he⟩⟩

/-- Settles O26: the REVERSING step in each direction, and the rest on the aim. -/
theorem rampBrakesAndTurns : Obligations.RampBrakesAndTurns := by
  intro r x v d hk hv hd
  rw [profileStep_ramp x hk]
  have hdecel : decelFor r v = d := hd.symm
  refine ⟨rampStep_rests, fun hi hup h => ?_, fun hi hdown h => ?_⟩
  · rw [rampStep_brakes hi (by simpa [FadeContext.aheadOrAt, hup] using h)]
    simp only [reversingStep, FadeContext.braking, ← hv, hdecel, hup, turned, Direction.flip, gt_iff_lt]
  · rw [rampStep_brakes hi (by simpa [FadeContext.aheadOrAt, hdown] using h)]
    simp only [reversingStep, FadeContext.braking, ← hv, hdecel, hdown, turned, Direction.flip]

/-! ## How far a step moves -/

/-- A MOVING step of a verified profile moves a channel by at most Rm, not past its aim (R82, R83). -/
theorem ProfileRecord.RampSound.moving_approaches {r : ProfileRecord} (h : r.RampSound) (x : FadeContext) :
    x.Approaches r.maxRate.toNat (movingStep r (x.underway r)).position :=
  FadeContext.approaches_underway
    ((movingStep_approaches r (x.underway r)).mono
      (movingRate_le (FadeContext.underway_rate_le h.start_le le_rfl) h.floor_le le_rfl))

/-- A braking moves a channel by at most Rm (R82, R83). -/
theorem reversingStep_within (r : ProfileRecord) {x : FadeContext} (h : x.position ≤ Config.maxPosition) :
    (reversingStep r (x.braking r)).position ≤ x.position + r.maxRate.toNat ∧
      x.position ≤ (reversingStep r (x.braking r)).position + r.maxRate.toNat := by
  have hrate : (x.braking r).rate ≤ r.maxRate.toNat := Nat.min_le_right _ _
  obtain ⟨p, -, h1, h2, -, -, e | ⟨-, e⟩⟩ := reversingStep_brakes r (x := x.braking r) h
  all_goals
    rw [e]
    exact ⟨h1.trans (Nat.add_le_add_left hrate _), h2.trans (Nat.add_le_add_left hrate _)⟩

/-- Settles O27: SLEW and MOVING steps approach the aim by at most Rm, and a braking moves by at most Rm. -/
theorem stepsNeverPassTheAim : Obligations.StepsNeverPassTheAim := by
  intro r x hcheck hsnap hx
  have of_approaches : ∀ {p} {b : Prop}, x.Approaches r.maxRate.toNat p →
      p ≤ x.position + r.maxRate.toNat ∧ x.position ≤ p + r.maxRate.toNat ∧
        (b → min x.position x.aim ≤ p ∧ p ≤ max x.position x.aim) := fun h => ⟨h.1, h.2.1, fun _ => h.2.2⟩
  obtain hk | ⟨hk, -⟩ | ⟨hk, hsound⟩ := checkProfile_eq_none hcheck
  · exact absurd hk hsnap
  · rw [profileStep_slew x hk]
    exact of_approaches (slewStep_approaches r x)
  · rw [profileStep_ramp x hk]
    obtain ⟨-, -, e⟩ | ⟨-, e⟩ | ⟨hi, hbehind, e⟩ := rampStep_cases r x <;> rw [e]
    · exact of_approaches (x.approaches_self _)
    · exact of_approaches (hsound.moving_approaches x)
    · obtain ⟨h1, h2⟩ := reversingStep_within r hx
      refine ⟨h1, h2, ?_⟩
      rintro (hk1 | hidle | hahead)
      · rw [hk] at hk1; exact absurd hk1 (by decide)
      · exact absurd hidle hi
      · rw [FadeContext.aheadOrAt_iff.mpr hahead] at hbehind; exact absurd hbehind nofun

end Sys2Proof.Machine
end

section
/-! Every fade under a verified profile comes to rest (O28). -/

namespace Sys2Proof.Machine

/-! ## What every step keeps -/

section

variable (r : ProfileRecord) (x : FadeContext)

theorem slewStep_aim : (slewStep r x).aim = x.aim := by
  unfold slewStep; repeat' split
  all_goals rfl

theorem movingStep_aim : (movingStep r x).aim = x.aim := by
  unfold movingStep; dsimp only; split <;> rfl

theorem reversingStep_aim : (reversingStep r x).aim = x.aim := by
  unfold reversingStep; dsimp only; repeat' split
  all_goals rfl

theorem rampStep_aim : (rampStep r x).aim = x.aim := by
  obtain ⟨-, -, e⟩ | ⟨-, e⟩ | ⟨-, -, e⟩ := rampStep_cases r x <;> rw [e]
  · rw [movingStep_aim, FadeContext.underway_aim]
  · exact reversingStep_aim r _

/-- A step leaves the aim (R71). -/
theorem profileStep_aim : (profileStep r x).aim = x.aim := by
  unfold profileStep; split
  · rfl
  · exact slewStep_aim r x
  · exact rampStep_aim r x
  · rfl

end

theorem FadeContext.Approaches.le_maxPosition {x : FadeContext} {v p : Nat} (h : x.Approaches v p)
    (hx : x.position ≤ Config.maxPosition) (ha : x.aim ≤ Config.maxPosition) : p ≤ Config.maxPosition :=
  h.2.2.2.trans (max_le hx ha)

/-- A step keeps the position within its range (R64, R80). -/
theorem profileStep_position_le (r : ProfileRecord) {x : FadeContext} (hx : x.position ≤ Config.maxPosition)
    (ha : x.aim ≤ Config.maxPosition) : (profileStep r x).position ≤ Config.maxPosition := by
  unfold profileStep; split
  · exact ha
  · exact (slewStep_approaches r x).le_maxPosition hx ha
  · obtain ⟨-, -, e⟩ | ⟨-, e⟩ | ⟨-, -, e⟩ := rampStep_cases r x <;> rw [e]
    · exact hx
    · exact (FadeContext.approaches_underway (movingStep_approaches r _)).le_maxPosition hx ha
    · obtain ⟨p, hp, -, -, -, -, e | ⟨-, e⟩⟩ := reversingStep_brakes r (x := x.braking r) hx <;> rw [e] <;> exact hp
  · exact hx

/-! ## How near to rest a channel is -/

theorem FadeContext.arrived_atRest (x : FadeContext) : x.arrived.AtRest := ⟨rfl, rfl, rfl⟩

theorem FadeContext.AtRest.arrived_eq {x : FadeContext} (h : x.AtRest) : x.arrived = x := by
  obtain ⟨position, rate, direction, phase, aim, profile⟩ := x
  obtain ⟨hposition, hrate, hphase⟩ := h
  dsimp only at hposition hrate hphase
  subst hposition hrate hphase
  rfl

/-- A channel at rest on its aim stays as it is (R72, R73, R76). -/
theorem FadeContext.AtRest.profileStep_eq {x : FadeContext} (h : x.AtRest) (r : ProfileRecord) : profileStep r x = x := by
  have hrest := h.arrived_eq
  obtain ⟨hposition, hrate, hphase⟩ := h
  unfold profileStep; split
  · exact hrest
  · rw [slewStep_rests hposition.symm]
    exact (congrArg (fun p => { x with position := p, rate := 0, phase := .idle }) hposition).trans hrest
  · rw [rampStep_rests hphase hposition, ← hrate]
  · rfl

/-- What every tick of a fade lowers: the distance of a channel that heads for its aim; and, above every distance, the rate
of a channel that brakes (R65, R79). -/
def FadeContext.toRest (x : FadeContext) : Nat :=
  if x.phase = .idle ∨ x.aheadOrAt = true then x.distance else x.rate + (Config.maxPosition + 1)

section

variable {r : ProfileRecord} {x : FadeContext}

theorem FadeContext.toRest_heading (h : x.phase = .idle ∨ x.aheadOrAt = true) : x.toRest = x.distance := if_pos h

theorem FadeContext.toRest_braking (hi : x.phase ≠ .idle) (h : x.aheadOrAt = false) :
    x.toRest = x.rate + (Config.maxPosition + 1) := if_neg (by simp [hi, h])

theorem FadeContext.distance_le (hx : x.position ≤ Config.maxPosition) (ha : x.aim ≤ Config.maxPosition) :
    x.distance ≤ Config.maxPosition := by
  unfold distance; omega

theorem FadeContext.distance_le_toRest (hx : x.position ≤ Config.maxPosition) (ha : x.aim ≤ Config.maxPosition) :
    x.distance ≤ x.toRest := by
  have := distance_le hx ha
  unfold toRest; split <;> omega

/-- A channel that moves toward its aim by less than the distance still heads for it, and is nearer (R65). -/
theorem FadeContext.movedToward_nears {v : Nat} (ha : x.aheadOrAt = true) (hv : 1 ≤ v) (h : v < x.distance) (rate : Nat)
    (phase : Phase) : { x with position := x.movedToward v, rate := rate, phase := phase }.toRest < x.distance := by
  have hahead : { x with position := x.movedToward v, rate := rate, phase := phase }.aheadOrAt = true := by
    rw [aheadOrAt_iff] at ha ⊢
    obtain ⟨hup, hdown⟩ := ha
    unfold distance at h
    unfold movedToward
    refine ⟨fun hd => ?_, fun hd => ?_⟩
    · have := hup hd
      dsimp only; split <;> omega
    · have := hdown hd
      dsimp only; split <;> omega
  rw [toRest_heading (.inr hahead)]
  unfold distance at *
  unfold movedToward
  dsimp only
  split <;> omega

theorem slewStep_nears (x : FadeContext) (hmax : 1 ≤ r.maxRate.toNat) :
    (slewStep r x).AtRest ∨ (slewStep r x).toRest < x.distance := by
  by_cases h : x.aim = x.position
  · rw [slewStep_rests h]; exact .inl ⟨h.symm, rfl, rfl⟩
  · by_cases hr : x.distance ≤ r.maxRate.toNat
    · rw [slewStep_arrives h hr]; exact .inl ⟨rfl, rfl, rfl⟩
    · rw [slewStep_moves (by omega)]
      have hheads : { x with direction := x.toward }.aheadOrAt = true := FadeContext.aheadOrAt_of_toward rfl
      exact .inr (FadeContext.movedToward_nears hheads hmax (Nat.lt_of_not_le hr) _ _)

theorem movingStep_nears (hsound : r.RampSound) (ha : x.aheadOrAt = true) :
    (movingStep r x).AtRest ∨ (movingStep r x).toRest < x.distance := by
  by_cases h : x.distance ≤ movingRate r x.rate x.distance
  · rw [movingStep_arrives h]; exact .inl x.arrived_atRest
  · rw [movingStep_moves (by omega)]
    exact .inr (FadeContext.movedToward_nears ha (hsound.movingRate_pos _ _) (by omega) _ _)

theorem Direction.flip_eq_up {d : Direction} : d.flip = .up ↔ d = .down := by cases d <;> simp [flip]

theorem Direction.flip_eq_down {d : Direction} : d.flip = .down ↔ d = .up := by cases d <;> simp [flip]

/-- Behind the position, for each direction (section 4.3). -/
theorem FadeContext.aheadOrAt_eq_false_iff : x.aheadOrAt = false ↔
    (x.direction = .up → x.aim < x.position) ∧ (x.direction = .down → x.position < x.aim) := by
  unfold aheadOrAt
  cases x.direction <;> simp

/-- A turn leaves the aim ahead when the braking went on away from it (R79). -/
theorem turned_aheadOrAt {p : Nat} (hbehind : x.aheadOrAt = false) (hup : x.direction = .up → x.position ≤ p)
    (hdown : x.direction = .down → p ≤ x.position) : (turned r { x with position := p }).aheadOrAt = true := by
  obtain ⟨hbelow, habove⟩ := FadeContext.aheadOrAt_eq_false_iff.mp hbehind
  rw [FadeContext.aheadOrAt_iff]
  refine ⟨fun h => ?_, fun h => ?_⟩
  · have hd := Direction.flip_eq_up.mp h
    exact (hdown hd).trans (habove hd).le
  · have hd := Direction.flip_eq_down.mp h
    exact (hbelow hd).le.trans (hup hd)

/-- A braking spends some of the rate, or turns (R79, R80). -/
theorem reversingStep_nears (hsound : r.RampSound) (hx : x.position ≤ Config.maxPosition) (ha : x.aim ≤ Config.maxPosition)
    (hbehind : x.aheadOrAt = false) :
    (reversingStep r (x.braking r)).toRest < x.rate + (Config.maxPosition + 1) := by
  have hrate : (x.braking r).rate ≤ x.rate := Nat.min_le_left _ _
  have hdecel := hsound.decel (x.braking r).rate
  obtain ⟨p, hp, -, -, hup, hdown, e | ⟨hlt, e⟩⟩ := reversingStep_brakes r (x := x.braking r) hx <;> rw [e]
  · rw [FadeContext.toRest_heading (.inr (turned_aheadOrAt (x := x.braking r) hbehind hup hdown))]
    exact Nat.lt_add_left _ (Nat.lt_succ_of_le (FadeContext.distance_le hp ha))
  · unfold FadeContext.toRest
    split
    · exact Nat.lt_add_left _ (Nat.lt_succ_of_le (FadeContext.distance_le hp ha))
    · dsimp only; omega

/-- A tick under a verified profile brings a channel to rest, or nearer to it (R83). -/
theorem profileStep_nears (h : checkProfile r = none) (hx : x.position ≤ Config.maxPosition)
    (ha : x.aim ≤ Config.maxPosition) : (profileStep r x).AtRest ∨ (profileStep r x).toRest < x.toRest := by
  have hdistance := FadeContext.distance_le_toRest hx ha
  obtain hk | ⟨hk, hmax⟩ | ⟨hk, hsound⟩ := checkProfile_eq_none h
  · rw [profileStep_snap x hk]; exact .inl x.arrived_atRest
  · rw [profileStep_slew x hk]
    exact (slewStep_nears x hmax).imp_right (·.trans_le hdistance)
  · rw [profileStep_ramp x hk]
    obtain ⟨hi, hat, e⟩ | ⟨hheads, e⟩ | ⟨hi, hbehind, e⟩ := rampStep_cases r x <;> rw [e]
    · exact .inl ⟨hat, rfl, hi⟩
    · refine (movingStep_nears hsound (FadeContext.underway_aheadOrAt hheads)).imp_right fun hlt => ?_
      rw [FadeContext.underway_distance] at hlt
      exact hlt.trans_le hdistance
    · rw [FadeContext.toRest_braking hi hbehind]
      exact .inr (reversingStep_nears hsound hx ha hbehind)

/-! ## Many ticks -/

theorem fadeFor_eq_iterate (r : ProfileRecord) (n : Nat) (x : FadeContext) : fadeFor r n x = (profileStep r)^[n] x := by
  induction n generalizing x with
  | zero => rfl
  | succ n ih => exact ih _

theorem fadeFor_aim (r : ProfileRecord) (n : Nat) (x : FadeContext) : (fadeFor r n x).aim = x.aim := by
  induction n generalizing x with
  | zero => rfl
  | succ n ih => exact (ih _).trans (profileStep_aim r x)

/-- Under a verified profile a channel comes to rest: by induction on how near to it it is (R83). -/
theorem exists_fadeFor_atRest (h : checkProfile r = none) (x : FadeContext) (hx : x.position ≤ Config.maxPosition)
    (ha : x.aim ≤ Config.maxPosition) : ∃ n, (fadeFor r n x).AtRest := by
  induction hn : x.toRest using Nat.strong_induction_on generalizing x with
  | _ k ih =>
    obtain hrest | hlt := profileStep_nears h hx ha
    · exact ⟨1, hrest⟩
    · obtain ⟨n, hrest⟩ := ih _ (hlt.trans_eq hn) (profileStep r x) (profileStep_position_le r hx ha)
        ((profileStep_aim r x).trans_le ha) rfl
      exact ⟨n + 1, hrest⟩

/-- A channel at rest stays at rest, however many ticks follow (R71, R83). -/
theorem fadeFor_atRest_of_le {n m : Nat} (h : (fadeFor r n x).AtRest) (hm : n ≤ m) : (fadeFor r m x).AtRest := by
  obtain ⟨k, rfl⟩ := Nat.exists_eq_add_of_le' hm
  rw [fadeFor_eq_iterate] at h ⊢
  rw [Function.iterate_add_apply, Function.iterate_fixed (h.profileStep_eq r)]
  exact h

end

/-- Settles O28: each tick lowers `FadeContext.toRest` or brings the channel to rest, where it stays. -/
theorem fadesComeToRest : Obligations.FadesComeToRest := by
  intro r x h hx ha
  obtain ⟨n, hrest⟩ := exists_fadeFor_atRest h x hx (ha.trans (by decide))
  exact ⟨n, fun m hm => ⟨fadeFor_atRest_of_le hrest hm, fadeFor_aim r m x⟩⟩

end Sys2Proof.Machine
end

section
/-! FADE_TICK, and the ranges of the fade contexts (O22, O23, O59). -/

namespace Sys2Proof.Machine

/-! ## FADE_TICK -/

/-- A fade tick that is due changes the time, its timer and the fades, and nothing else (R68). -/
theorem fadeTickOp_frame {s : State} {n : Nat} (h : s.tickAt = some n) :
    fadeTickOp s = { s with
      now := max s.now n, tickAt := some (n + s.tickClocks), fades := (fadeTickOp s).fades } := by
  unfold fadeTickOp
  rw [h]
  dsimp only
  split <;> rfl

theorem exec_fadeTick {s : State} (hs : s.inReset = false) : exec .fadeTick s = .next (fadeTickOp s) :=
  whenRunning_next hs

/-- Settles O22: what a fade tick changes, and what it does to each channel. -/
theorem fadeTickAdvancesEveryChannel : Obligations.FadeTickAdvancesEveryChannel := by
  intro n s hs hn
  obtain ⟨-, -, hpaused, hrunning⟩ := fadeTickOp_ticks hn
  rw [exec_fadeTick hs, fadeTickOp_frame hn]
  refine ⟨fun hp => ?_, fun hp => ⟨(fadeTickOp s).fades, rfl, hrunning hp⟩⟩
  rw [hpaused hp]
  rfl

/-- Settles O23: the SNAP step is the arrival, and a tick takes it. -/
theorem snapJumps : Obligations.SnapJumps := by
  refine ⟨fun r x h => profileStep_snap x h, fun n c s hs hn hp hk => ⟨_, exec_fadeTick hs, ?_⟩⟩
  obtain ⟨-, -, -, hrunning⟩ := fadeTickOp_ticks hn
  rw [hrunning hp c]
  exact profileStep_snap _ hk

/-! ## Ranges -/

section

variable {r : ProfileRecord} {x : FadeContext}

theorem rateField_le (v : RateField) : v.toNat ≤ 16777215 := Nat.le_of_lt_succ v.isLt

/-- A context whose rate is in range, and which is not in IDLE, or has the rate 0. -/
def FadeContext.RateSound (x : FadeContext) : Prop := x.rate ≤ 16777215 ∧ (x.phase = .idle → x.rate = 0)

theorem FadeContext.arrived_rateSound : x.arrived.RateSound := ⟨Nat.zero_le _, fun _ => rfl⟩

theorem slewStep_rateSound (r : ProfileRecord) (x : FadeContext) : (slewStep r x).RateSound := by
  unfold slewStep
  repeat' split
  · exact ⟨Nat.zero_le _, fun _ => rfl⟩
  · exact ⟨Nat.zero_le _, fun _ => rfl⟩
  · exact ⟨rateField_le _, nofun⟩

theorem movingStep_rateSound (hx : x.rate ≤ 16777215) : (movingStep r x).RateSound := by
  unfold movingStep
  dsimp only
  split
  · exact FadeContext.arrived_rateSound
  · exact ⟨movingRate_le hx (rateField_le _) (rateField_le _), nofun⟩

theorem rampStep_rateSound (r : ProfileRecord) {x : FadeContext} (hx : x.position ≤ Config.maxPosition) :
    (rampStep r x).RateSound := by
  obtain ⟨-, -, e⟩ | ⟨-, e⟩ | ⟨-, -, e⟩ := rampStep_cases r x <;> rw [e]
  · exact ⟨Nat.zero_le _, fun _ => rfl⟩
  · exact movingStep_rateSound (FadeContext.underway_rate_le (rateField_le _) (rateField_le _))
  · have hrate : (x.braking r).rate ≤ 16777215 := (Nat.min_le_right _ _).trans (rateField_le _)
    obtain ⟨p, -, -, -, -, -, e | ⟨-, e⟩⟩ := reversingStep_brakes r (x := x.braking r) hx <;> rw [e]
    · exact ⟨rateField_le _, nofun⟩
    · exact ⟨(Nat.sub_le _ _).trans hrate, nofun⟩

/-- A step keeps a context in its ranges under any profile record (R64, R65). -/
theorem profileStep_inRange (r : ProfileRecord) {x : FadeContext} (h : x.InRange) : (profileStep r x).InRange := by
  obtain ⟨hposition, hrate, haim, haligned, hidle⟩ := h
  have hsound : (profileStep r x).RateSound := by
    unfold profileStep; split
    · exact FadeContext.arrived_rateSound
    · exact slewStep_rateSound r x
    · exact rampStep_rateSound r hposition
    · exact ⟨hrate, hidle⟩
  have hle := profileStep_position_le r hposition (haim.trans (by decide))
  have haim' := profileStep_aim r x
  exact ⟨hle, hsound.1, haim'.trans_le haim, by rwa [haim'], hsound.2⟩

/-- A tick keeps a context in its ranges (R64, R65, R71). -/
theorem advance_inRange (profiles : Vector ProfileRecord 16) (t : TargetRecord) (h : x.InRange) :
    (advance profiles t x).InRange := by
  obtain ⟨hposition, hrate, -, -, hidle⟩ := h
  have hlevel := t.level.isLt
  refine profileStep_inRange _ ⟨hposition, hrate, ?_, Nat.mul_mod_left _ _, hidle⟩
  dsimp only
  omega

end

/-! ## What a command does to the fades -/

/-- Every channel is left as it was, is advanced by a tick under some profiles and targets, or stands at its reset value. -/
def FadesTicked (s t : State) : Prop :=
  ∀ c : Fin Config.channels, t.fades[c] = s.fades[c] ∨
    (∃ profiles record, t.fades[c] = advance profiles record s.fades[c]) ∨ t.fades[c] = .reset

theorem FadesTicked.inRange {s t : State} (h : FadesTicked s t) (hs : s.FadesInRange) : t.FadesInRange := by
  intro c
  obtain e | ⟨profiles, record, e⟩ | e := h c <;> rw [e]
  · exact hs c
  · exact advance_inRange profiles record (hs c)
  · simp [FadeContext.InRange, FadeContext.reset]

theorem FadesTicked.of_eq {s t : State} (h : t.fades = s.fades) : FadesTicked s t := fun c => .inl (by rw [h])

theorem FadesTicked.congr {s t s' t' : State} (h : FadesTicked s t) (hs : s'.fades = s.fades) (ht : t'.fades = t.fades) :
    FadesTicked s' t' := by
  unfold FadesTicked
  rw [hs, ht]
  exact h

theorem fadeTickOp_ticked (s : State) : FadesTicked s (fadeTickOp s) := by
  cases hn : s.tickAt with
  | none => exact .of_eq (by rw [fadeTickOp, hn])
  | some n =>
    obtain ⟨-, -, hpaused, hrunning⟩ := fadeTickOp_ticks hn
    cases hp : s.pause with
    | true => exact .of_eq (hpaused hp)
    | false => exact fun c => .inr (.inl ⟨_, _, hrunning hp c⟩)

theorem changeover_ticked (k : Crc32) (s : State) : FadesTicked s (changeover k s) := by
  by_cases h : ∀ m, s.tickAt = some m → s.now < m
  · exact .of_eq (changeover_fades k h)
  · push Not at h
    obtain ⟨m, hm, hdue⟩ := h
    obtain ⟨-, ⟨e, -⟩ | ⟨-, hpaused, hrunning⟩⟩ := changeover_due k hm hdue
    · exact .of_eq e
    · cases hp : s.pause with
      | true => exact .of_eq (hpaused hp)
      | false => exact fun c => .inr (.inl ⟨_, _, hrunning hp c⟩)

theorem exec_refreshExpiry_ticked {s t : State} (hs : s.inReset = false) (h : exec .refreshExpiry s = .next t) :
    FadesTicked s t := by
  by_cases hlater : s.output = .empty → ∀ o k, s.session = .armed o k →
      ∀ n m, s.refreshAt = some n → s.tickAt = some m → max s.now n < m
  · exact .of_eq (exec_fades (c := .refreshExpiry) nofun nofun (fun _ => hlater) h)
  · push Not at hlater
    obtain ⟨hempty, o, k, harmed, n, -, hn, -⟩ := hlater
    obtain ⟨d, out, hoffered, -⟩ := snapshot_offered n s
    rw [exec_refreshExpiry_armed hs hn hempty harmed hoffered rfl] at h
    obtain rfl : restartRefresh n (changeover k (s.offered (max s.now n) d out)) = t := by injection h
    exact (changeover_ticked k (s.offered (max s.now n) d out)).congr rfl rfl

/-- Every command leaves each channel as it was, takes a tick, or resets it (R61, R69, R87, R88). -/
theorem exec_ticked {c : Instr} {s t : State} (h : exec c s = .next t) : FadesTicked s t := by
  by_cases htick : c = .fadeTick
  · subst htick
    obtain rfl | ⟨-, rfl⟩ := whenRunning_cases h
    · exact .of_eq rfl
    · exact fadeTickOp_ticked s
  by_cases hrefresh : c = .refreshExpiry
  · subst hrefresh
    obtain rfl | ⟨hs, -⟩ := whenRunning_cases h
    · exact .of_eq rfl
    · exact exec_refreshExpiry_ticked hs h
  by_cases hhard : c = .hardReset
  · subst hhard
    obtain rfl : heldInReset s = t := by injection h
    exact fun c => .inr (.inr (by simp [heldInReset, State.reset]))
  exact .of_eq (exec_fades htick hhard (fun e => absurd e hrefresh) h)

/-- Settles O59: every command keeps the ranges, as a tick and a reset do. -/
theorem fadesStayInRange : Obligations.FadesStayInRange :=
  keptByEveryStep_of_exec (fun _ _ _ _ h => h) fun _ _ _ h he => (exec_ticked he).inRange h

end Sys2Proof.Machine
end

section
/-! REFRESH_EXPIRY without a changeover, and the part left to itself (O29, O2). -/

namespace Sys2Proof.Machine

/-! ## REFRESH_EXPIRY -/

/-- A snapshot with no session ARMED is the output frame offered to D-tx (R109 to R111). -/
theorem exec_refreshExpiry_unarmed {n : Nat} {s : State} (hs : s.inReset = false) (hn : s.refreshAt = some n)
    (ho : s.output = .empty) (hk : ∀ o k, s.session ≠ .armed o k) {u : State}
    (hu : serveD { s.reach n with output := .waiting (s.reach n).outputSnapshot, nextSequence := s.nextSequence + 1 } = u)
    (hsession : u.session = s.session) : exec .refreshExpiry s = .next (restartRefresh n u) := by
  refine (whenRunning_next hs).trans ?_
  have htold : toldOfSnapshot u = u := by
    unfold toldOfSnapshot
    rw [hsession]
    split
    · exact absurd ‹_› (hk _ _)
    all_goals rfl
  have htaken : takeSnapshot (s.reach n) = u := by
    unfold takeSnapshot
    rw [reach_nextSequence, hu, htold]
  unfold refreshExpiryOp
  simp only [hn, reach_output, ho, htaken]

/-- An expiry that finds the output frame waiting or sending is a missed refresh (R108). -/
theorem exec_refreshExpiry_missed {n : Nat} {s : State} (hs : s.inReset = false) (hn : s.refreshAt = some n)
    (ho : s.output ≠ .empty) : exec .refreshExpiry s = .next (restartRefresh n (missRefresh (s.reach n))) := by
  refine (whenRunning_next hs).trans ?_
  unfold refreshExpiryOp
  simp only [hn, reach_output]
  split
  · exact absurd ‹_› ho
  all_goals rfl

/-- Settles O29: the snapshot as D-tx takes it or lets it wait, and the missed refresh. -/
theorem refreshSnapshotsOrMisses : Obligations.RefreshSnapshotsOrMisses := by
  refine ⟨fun n s f hs hn ho hk hlen hf => ?_, fun n s hs hn ho => exec_refreshExpiry_missed hs hn ho⟩
  rw [← outputSnapshot_eq hlen] at hf
  subst hf
  obtain ⟨d, out, hu, hfree, hbusy⟩ := snapshot_offered n s
  rw [exec_refreshExpiry_unarmed hs hn ho hk hu rfl]
  refine ⟨fun hd => ?_, fun hd => ?_⟩
  · obtain ⟨rfl, rfl⟩ := hfree hd; rfl
  · obtain ⟨rfl, rfl⟩ := hbusy hd; rfl

/-! ## The part left to itself -/

theorem step_idle {s : State} (h : s.pending = []) : step s = .next (idle s) := by
  unfold step; rw [h]

theorem idle_nothingDue {s : State} (h : dueEvents s = []) : idle s = { s with now := s.now + 1 } := by
  unfold idle; rw [h]

theorem idle_oneDue {s : State} {c : Instr} (h : dueEvents s = [c]) : idle s = { s with pending := [c] } := by
  unfold idle; rw [h]

/-- Of several events that are due, one waits next, by a free choice (log entry 3). -/
theorem idle_severalDue {s : State} (h : 2 ≤ (dueEvents s).length) :
    ∃ c ∈ dueEvents s, idle s = { s with pending := [c], choices := s.choices + 1 } := by
  unfold idle
  split <;> rename_i hdue <;> rw [hdue] at h
  · simp at h
  · simp at h
  · rename_i i rest _
    have hlt : Config.choice s.choices % (rest.length + 1) < (i :: rest).length := Nat.mod_lt _ (Nat.succ_pos _)
    refine ⟨_, ?_, rfl⟩
    rw [hdue, List.getD_eq_getElem _ _ hlt]
    exact List.getElem_mem hlt

theorem dueAt_iff {now : Nat} {t : Option Nat} : dueAt now t = true ↔ ∃ n, n ≤ now ∧ t = some n := by
  cases t <;> simp [dueAt]

theorem mem_dueEvents {s : State} {c : Instr} : c ∈ dueEvents s ↔ ∃ n, n ≤ s.now ∧ (some n, c) ∈ ownEvents s := by
  simp only [dueEvents, List.mem_map, List.mem_filter, dueAt_iff]
  constructor
  · rintro ⟨⟨_, _⟩, ⟨hmem, n, hle, rfl⟩, rfl⟩
    exact ⟨n, hle, hmem⟩
  · rintro ⟨n, hle, hmem⟩
    exact ⟨(some n, c), ⟨hmem, n, hle, rfl⟩, rfl⟩

/-! ### The instants of the own events -/

section

variable {n : Nat}

theorem Session.timer_eq_some {x : Session} : x.timer = some n ↔ ∃ o, x = .opened o n := by
  cases x <;> simp [timer]

theorem Session.verified_eq_some {x : Session} : x.verified = some n ↔
    ∃ o k since, x = .verifying o k since ∧ n = since + 1 + Config.workTime since % 20000 := by
  cases x <;> simp [verified, workDone, eq_comm]

theorem Session.copied_eq_some {x : Session} : x.copied = some n ↔
    ∃ since, x = .copying since ∧ n = since + 1 + Config.workTime since % 20000 := by
  cases x <;> simp [copied, workDone, eq_comm]

theorem Tx.doneAt_eq_some {x : Tx} : x.doneAt = some n ↔ ∃ f, x = .sending f n := by
  cases x <;> simp [doneAt]

theorem Tx.gapEndAt_eq_some {x : Tx} : x.gapEndAt = some n ↔ x = .gap (some n) := by
  cases x <;> simp [gapEndAt]

end

theorem Port.exists_iff {P : Port → Prop} : (∃ p, P p) ↔ P .a ∨ P .b :=
  ⟨fun ⟨p, h⟩ => by cases p <;> simp [h], fun h => h.elim (⟨_, ·⟩) (⟨_, ·⟩)⟩

theorem Transmitter.exists_iff {P : Transmitter → Prop} : (∃ x, P x) ↔ P .dTx ∨ P .aReturnTx ∨ P .bReturnTx :=
  ⟨fun ⟨x, h⟩ => by cases x <;> simp [h], fun h => h.elim (⟨_, ·⟩) (·.elim (⟨_, ·⟩) (⟨_, ·⟩))⟩

/-- The own events with their instants, each with what it is the event of (R15, R24, R68, R107, R161, R163, R173). -/
theorem mem_ownEvents {s : State} {n : Nat} {c : Instr} : (some n, c) ∈ ownEvents s ↔
    (c = .fadeTick ∧ s.tickAt = some n) ∨ (c = .refreshExpiry ∧ s.refreshAt = some n) ∨
    (∃ p, c = .lossExpiry p ∧ (s.ports.get p).lossAt = some n) ∨
    (∃ p, c = .holdExpiry p ∧ (s.ports.get p).holdAt = some n) ∨
    (c = .sessionExpiry ∧ s.session.timer = some n) ∨ (c = .verificationComplete ∧ s.session.verified = some n) ∨
    (c = .copyComplete ∧ s.session.copied = some n) ∨
    (∃ x, c = .transmitComplete x ∧ (s.tx.get x).doneAt = some n) ∨
    (∃ x, c = .gapEnd x ∧ (s.tx.get x).gapEndAt = some n) := by
  simp only [ownEvents, List.mem_cons, List.not_mem_nil, or_false, Prod.mk.injEq, Port.exists_iff, Transmitter.exists_iff,
    PerPort.get, PerTx.get, eq_comm (a := some n), and_comm, or_assoc]

/-- Settles O2: the clock or a due event by the three cases of `idle`, and the due events from the list of own events. -/
theorem stepWithNothingWaiting : Obligations.StepWithNothingWaiting := by
  intro s h
  rw [step_idle h]
  refine ⟨fun hd => by rw [idle_nothingDue hd], fun c hd => by rw [idle_oneDue hd], fun hd => ?_, fun c => mem_dueEvents,
    fun n c => ?_⟩
  · obtain ⟨c, hc, e⟩ := idle_severalDue hd
    exact ⟨c, hc, by rw [e]⟩
  · rw [mem_ownEvents, Session.timer_eq_some, Session.verified_eq_some, Session.copied_eq_some]
    simp only [Tx.doneAt_eq_some, Tx.gapEndAt_eq_some, exists_and_left]

end Sys2Proof.Machine
end

section
/-! SAVE_SCENE (O47). -/

namespace Sys2Proof.Machine

/-- The state that a SAVE_SCENE of a scene leaves, before its answer (R97, R98). -/
def sceneSaved (scene : Fin 4) (s : State) : State :=
  sceneWritten (fun f _ => f.val == scene.val) { s with scenes := s.scenes.set scene.val s.presentLevels }

/-- SAVE_SCENE of a scene that there is takes no channel into SCENE, so it latches nothing (R57, R97). -/
theorem carrySaveScene_ok {scene : Byte} (hscene : scene.toNat < 4) (s : State) :
    carrySaveScene scene s = ⟨sceneSaved ⟨scene.toNat, hscene⟩ s, .ok, [], []⟩ :=
  (dif_pos hscene).trans (congrArg (Carried.mk _ _ _) (sceneWritten_latches _ s _))

/-- SAVE_SCENE of an id above 3 is refused (R97). -/
theorem carrySaveScene_bad {scene : Byte} (hscene : 3 < scene.toNat) (s : State) :
    carrySaveScene scene s = ⟨s, .badArgument, [], []⟩ := dif_neg (by omega)

/-- The fallback scene is a given scene exactly when the fallback byte is its id (R210, R214). -/
theorem fallback_eq_some_iff {c : ConfigRecord} {f : Fin 4} : c.fallback = some f ↔ c.fallbackScene.toNat = f.val := by
  unfold ConfigRecord.fallback
  split
  · rw [Option.some.injEq, Fin.ext_iff]
  · exact iff_of_false nofun (by omega)

/-- The scene saved holds the present levels, the others what they held (R64, R97). -/
theorem sceneSaved_scenes (scene : Fin 4) (s : State) (f : Fin 4) (c : Fin Config.channels) :
    (sceneSaved scene s).scenes[f][c] =
      if f.val = scene.val then BitVec.ofNat 16 (s.fades[c].position / 256) else s.scenes[f][c] := by
  show (s.scenes.set scene.val s.presentLevels)[f.val][c.val] = _
  rw [Vector.getElem_set]
  by_cases hf : f.val = scene.val
  · rw [if_pos hf.symm, if_pos hf]
    exact Table.getElem_mapFin _ _ _ _
  · rw [if_neg (Ne.symm hf), if_neg hf]
    rfl

/-- The channels in SCENE are resolved when the scene saved is the fallback scene, the others left alone (R59, R98). -/
theorem sceneSaved_target (scene : Fin 4) (s : State) (c : Fin Config.channels) :
    (sceneSaved scene s).targets[c] =
      if s.targets[c].kind = .scene ∧ s.config.fallbackScene.toNat = scene.val then
        resolveTarget (sceneSaved scene s) c s.targets[c]
      else s.targets[c] := by
  refine (sceneWritten_target _ _ c).trans (if_congr ?_ rfl rfl)
  simp only [beq_iff_eq]
  constructor
  · rintro ⟨f, hf, hkind, hscene⟩
    exact ⟨hkind, (fallback_eq_some_iff.mp hf).trans hscene⟩
  · rintro ⟨hkind, hscene⟩
    exact ⟨scene, fallback_eq_some_iff.mpr hscene, hkind, rfl⟩

section

variable {h : RequestHeader} {scene : Byte} {extra : List Byte} {s : State}

theorem exec_saveScene (hs : s.inReset = false) :
    exec (.saveScene h scene extra) s =
      .next (onRequest .acts h 0x22 (scene :: extra) (guardReserved h (carrySaveScene scene)) s) := whenRunning_next hs

/-- SAVE_SCENE of an id above 3 is answered without effect (R97, R134). -/
theorem saveScene_refused (hres : h.reserved = 0) (he : Executes h 0x22 (scene :: extra) s) (hscene : 3 < scene.toNat) :
    ∃ t, exec (.saveScene h scene extra) s = .next t ∧ Settled (rxOf h.port) s t ∧
      OnlyAnswer s t ∧ Answered h 0x22 .badArgument [] [] s t :=
  ⟨_, exec_saveScene he.1, executed_same he ((if_pos hres).trans (carrySaveScene_bad hscene _))⟩

/-- SAVE_SCENE of a scene that there is leaves the scene saved and its answer (R97, R134). -/
theorem saveScene_saves (hres : h.reserved = 0) (he : Executes h 0x22 (scene :: extra) s) (hscene : scene.toNat < 4) :
    ∃ t, exec (.saveScene h scene extra) s = .next t ∧ Settled (rxOf h.port) s t ∧
      OnlyAnswer (sceneSaved ⟨scene.toNat, hscene⟩ (settle (rxOf h.port) s)) t ∧ Answered h 0x22 .ok [] [] s t := by
  have hcarry : guardReserved h (carrySaveScene scene) (settle (rxOf h.port) s) =
      ⟨sceneSaved ⟨scene.toNat, hscene⟩ (settle (rxOf h.port) s), .ok, [], []⟩ :=
    (if_pos hres).trans (carrySaveScene_ok hscene _)
  exact ⟨_, exec_saveScene he.1, executed_plain he hcarry rfl rfl rfl rfl rfl⟩

end

/-- Settles O47: what the scene saved holds and which channels it resolves, read through the answer. -/
theorem saveSceneCapturesTheLevels : Obligations.SaveSceneCapturesTheLevels := by
  refine fun h scene extra s hres he => ⟨fun hscene => ?_, saveScene_refused hres he⟩
  obtain ⟨t, hexec, hsettled, honly, hanswered⟩ := saveScene_saves hres he (show scene.toNat < 4 by omega)
  obtain ⟨hports, htargets, hparks, hscenes, -, -, hbank⟩ := honly.part
  refine ⟨t, hexec, hsettled, hanswered, honly.besideRx ?_, fun f c => ?_, fun c => ?_⟩
  · rw [hscenes, htargets]
    rfl
  · rw [hscenes]
    exact sceneSaved_scenes _ _ f c
  · rw [htargets, resolveTarget_congr hparks hports hbank hscenes c _]
    have htarget := sceneSaved_target ⟨scene.toNat, by omega⟩ (settle (rxOf h.port) s) c
    split
    · rename_i hsel
      exact htarget.trans (if_pos (hsel.imp_right (congrArg BitVec.toNat)))
    · rename_i hsel
      exact htarget.trans (if_neg (mt (And.imp_right BitVec.eq_of_toNat_eq) hsel))

end Sys2Proof.Machine
end

section
/-! The capacities, the write pointer, the node address and the output sequence (O52, O31). -/

namespace Sys2Proof.Machine

/-! ## What a step does to the quantities that have a range -/

/-- The states agree on the output sequence, on what has a capacity, and on the write pointer. -/
def SameQuantities (s t : State) : Prop :=
  (t.nextSequence, t.queue, t.forward, t.relay, t.missed, t.pointer) =
    (s.nextSequence, s.queue, s.forward, s.relay, s.missed, s.pointer)

/-- Between two states the output sequence stands, what has a capacity does not grow, and the write pointer stays on an
entry of its table. -/
structure NothingGrows (s t : State) : Prop where
  sequence : t.nextSequence = s.nextSequence
  queue : t.queue.length ≤ s.queue.length
  forward : t.forward.length ≤ s.forward.length
  relay : t.relay.length ≤ s.relay.length
  missed : t.missed ≤ s.missed
  pointer : s.PointerInRange → t.PointerInRange

/-- Between two states the output sequence stands, and the capacities and the write pointer stay in range. -/
structure KeepsRanges (s t : State) : Prop where
  sequence : t.nextSequence = s.nextSequence
  capacity : s.WithinCapacity → t.WithinCapacity
  pointer : s.PointerInRange → t.PointerInRange

theorem NothingGrows.of_same {s t : State} (h : SameQuantities s t) : NothingGrows s t := by
  simp only [SameQuantities, Prod.mk.injEq] at h
  obtain ⟨hsequence, hqueue, hforward, hrelay, hmissed, hpointer⟩ := h
  exact ⟨hsequence, hqueue ▸ le_rfl, hforward ▸ le_rfl, hrelay ▸ le_rfl, hmissed ▸ le_rfl,
    by unfold State.PointerInRange; rw [hpointer]; exact id⟩

theorem NothingGrows.of_linked {s t : State} (h : Linked s t) (hqueue : t.queue.length ≤ s.queue.length)
    (hforward : t.forward.length ≤ s.forward.length) (hrelay : t.relay.length ≤ s.relay.length) : NothingGrows s t :=
  ⟨h.nextSequence, hqueue, hforward, hrelay, h.missed.le, by unfold State.PointerInRange; rw [h.pointer]; exact id⟩

theorem NothingGrows.trans {s t u : State} (h : NothingGrows s t) (k : NothingGrows t u) : NothingGrows s u :=
  ⟨k.sequence.trans h.sequence, k.queue.trans h.queue, k.forward.trans h.forward, k.relay.trans h.relay,
    k.missed.trans h.missed, k.pointer ∘ h.pointer⟩

/-- What does not grow stays within its capacity. -/
theorem NothingGrows.keeps {s t : State} (h : NothingGrows s t) : KeepsRanges s t where
  sequence := h.sequence
  capacity := fun ⟨hqueue, hforward, hrelay, hmissed⟩ =>
    ⟨h.queue.trans hqueue, h.forward.trans hforward, h.relay.trans hrelay, h.missed.trans hmissed⟩
  pointer := h.pointer

theorem KeepsRanges.of_same {s t : State} (h : SameQuantities s t) : KeepsRanges s t := (NothingGrows.of_same h).keeps

/-- The links leave the output sequence and the write pointer alone. -/
theorem KeepsRanges.of_linked {s t : State} (h : Linked s t) (hc : s.WithinCapacity → t.WithinCapacity) :
    KeepsRanges s t :=
  ⟨h.nextSequence, hc, by unfold State.PointerInRange; rw [h.pointer]; exact id⟩

theorem KeepsRanges.refl (s : State) : KeepsRanges s s := ⟨rfl, id, id⟩

theorem KeepsRanges.trans {s t u : State} (h : KeepsRanges s t) (k : KeepsRanges t u) : KeepsRanges s u :=
  ⟨k.sequence.trans h.sequence, k.capacity ∘ h.capacity, k.pointer ∘ h.pointer⟩

/-- An operation on a state with the same quantities. -/
theorem KeepsRanges.after {s t u : State} (k : KeepsRanges t u) (h : SameQuantities s t) : KeepsRanges s u :=
  (KeepsRanges.of_same h).trans k

/-! ## The arbiters and the reply queue -/

theorem length_of_entries {q r : List QueueEntry} (h : entries q = entries r) : q.length = r.length := by
  rw [← length_entries q, h, length_entries]

/-- D-tx takes at most from the forward FIFO (R113). -/
theorem serveD_nothingGrows (s : State) : NothingGrows s (serveD s) := by
  refine .of_linked (serveD_linked s) (by rw [serveD_frame]) ?_ (by rw [serveD_frame])
  obtain ⟨f, -, -, e⟩ | ⟨f, rest, -, -, hforward, e⟩ | ⟨-, e⟩ := serveD_cases s <;> rw [e]
  · exact le_rfl
  · rw [hforward]; exact Nat.le_succ _

/-- A-return-tx takes at most from the relay FIFO; an entry it sends stays in the queue (R136, R140). -/
theorem serveA_nothingGrows (s : State) : NothingGrows s (serveA s) := by
  refine .of_linked (serveA_noticed s).linked (length_of_entries (serveA_entries s)).le
    (by rw [(serveA_noticed s).forward]) ?_
  obtain ⟨m, q, -, -, e⟩ | ⟨f, rest, -, hrelay, e⟩ | ⟨-, e⟩ := serveA_cases s <;> rw [e]
  · exact le_rfl
  · rw [hrelay]; exact Nat.le_succ _

theorem serveB_nothingGrows (s : State) : NothingGrows s (serveB s) :=
  .of_linked (serveB_linked s) (length_of_entries (serveB_entries s)).le (by rw [serveB_frame]) (by rw [serveB_frame])

theorem serve_nothingGrows (x : Transmitter) (s : State) : NothingGrows s (serve x s) := by
  cases x
  · exact serveD_nothingGrows s
  · exact serveA_nothingGrows s
  · exact serveB_nothingGrows s

theorem serveReturn_nothingGrows (p : Port) (s : State) : NothingGrows s (serveReturn p s) := by
  cases p
  · exact serveA_nothingGrows s
  · exact serveB_nothingGrows s

/-- An entry that joins a queue with room leaves it within 8 (R136). -/
theorem joinQueue_withinCapacity (m : Message) (p : Port) {s : State} (hroom : s.queue.length < 8)
    (h : s.WithinCapacity) : (joinQueue m p s).WithinCapacity :=
  (serveReturn_nothingGrows p _).keeps.capacity ⟨by simpa using hroom, h.2⟩

theorem joinQueue_keepsRanges (m : Message) (p : Port) {s : State} (hroom : s.queue.length < 8) :
    KeepsRanges s (joinQueue m p s) :=
  .of_linked (joinQueue_linked m p s) (joinQueue_withinCapacity m p hroom)

/-! ## Latchings, notices and paths -/

/-- A notice is queued only where the queue has room (R189). -/
theorem offerNotice_keepsRanges (k : Condition) (s : State) : KeepsRanges s (offerNotice k s) := by
  unfold offerNotice; repeat' split
  · exact .refl s
  · rename_i hroom; exact joinQueue_keepsRanges _ _ hroom
  · exact .of_same rfl

theorem latchFlag_nothingGrows (k : Condition) (s : State) : NothingGrows s (latchFlag k s).1 := by
  rw [latchFlag_eq]; exact .of_same rfl

theorem latch_keepsRanges (k : Condition) (s : State) : KeepsRanges s (latch k s) := by
  rw [latch_eq]; split
  · exact (latchFlag_nothingGrows k s).keeps.trans (offerNotice_keepsRanges k _)
  · exact (latchFlag_nothingGrows k s).keeps

theorem latchAll_keepsRanges (ks : List Condition) (s : State) : KeepsRanges s (latchAll ks s) := by
  induction ks generalizing s with
  | nil => exact .refl s
  | cons k ks ih => exact (latch_keepsRanges k s).trans (ih _)

theorem latchFlags_nothingGrows (ks : List Condition) (s : State) : NothingGrows s (latchFlags ks s).1 := by
  induction ks generalizing s with
  | nil => exact .of_same rfl
  | cons k ks ih => exact (latchFlag_nothingGrows k s).trans (ih _)

theorem offerNotices_keepsRanges (ks : List Condition) (s : State) : KeepsRanges s (offerNotices ks s) := by
  induction ks generalizing s with
  | nil => exact .refl s
  | cons k ks ih => exact (offerNotice_keepsRanges k s).trans (ih _)

/-- A frame enters the forward FIFO only where it has room (R115, R116). -/
theorem forwardPath_keepsRanges (f : Frame) (s : State) : KeepsRanges s (forwardPath f s) := by
  unfold forwardPath; repeat' split
  · exact latch_keepsRanges _ s
  · rename_i hroom
    have joined : KeepsRanges s { s with forward := s.forward ++ [f] } :=
      .of_linked rfl fun ⟨hqueue, _, hrest⟩ => ⟨hqueue, by simpa using hroom, hrest⟩
    exact joined.trans (serveD_nothingGrows _).keeps
  · exact .refl s

/-- A frame enters the relay FIFO only where it has room (R118). -/
theorem relayPath_keepsRanges (f : Frame) (s : State) : KeepsRanges s (relayPath f s) := by
  unfold relayPath; split
  · exact latch_keepsRanges _ s
  · rename_i hroom
    have joined : KeepsRanges s { s with relay := s.relay ++ [f] } :=
      .of_linked rfl fun ⟨hqueue, hforward, _, hmissed⟩ => ⟨hqueue, hforward, by simpa using hroom, hmissed⟩
    exact joined.trans (serveA_nothingGrows _).keeps

/-! ## Receivers and ports -/

theorem receiveErrorOp_keepsRanges (r : Receiver) (e : ErrorKind) (s : State) :
    KeepsRanges s (receiveErrorOp r e s) := by
  have latched : KeepsRanges s (latch .frameError (s.setRx r { (s.rx.get r).settled with lastError := some e })) :=
    (latch_keepsRanges _ _).after rfl
  unfold receiveErrorOp
  rw [reportBadFrame_rest]
  exact latched.trans (.of_same rfl)

theorem errorAtSample_keepsRanges (r : Receiver) (e : DetectedError) (s : State) :
    KeepsRanges s (errorAtSample r e s) := (receiveErrorOp_keepsRanges _ _ _).after rfl

theorem settle_keepsRanges (r : Receiver) (s : State) : KeepsRanges s (settle r s) := .of_same rfl

theorem resolve_keepsRanges (sel : Fin Config.channels → Bool) (s : State) : KeepsRanges s (resolve sel s) := by
  unfold resolve; dsimp only; split
  · exact (latch_keepsRanges _ (resolveQuiet sel s)).after rfl
  · exact .of_same rfl

theorem goodFrame_keepsRanges (p : Port) (s : State) : KeepsRanges s (goodFrame p s) := by
  unfold goodFrame; dsimp only; split
  · exact (latch_keepsRanges _ (s.setPort p _)).after rfl
  · exact .of_same rfl

theorem acceptFrame_keepsRanges (p : Port) (f : LevelFrame) (s : State) : KeepsRanges s (acceptFrame p f s) :=
  ((KeepsRanges.of_same (s := s) (t := s.setPort p _) rfl).trans (goodFrame_keepsRanges p _)).trans
    ((resolve_keepsRanges _ (moveOwners p _ _)).after rfl)

theorem onLevelA_keepsRanges (f : LevelFrame) (s : State) : KeepsRanges s (onLevelA f s) := by
  unfold onLevelA levelAtA
  repeat' split
  · exact errorAtSample_keepsRanges _ _ s
  · exact (settle_keepsRanges _ s).trans (acceptFrame_keepsRanges _ _ _)
  · exact (settle_keepsRanges _ s).trans (latch_keepsRanges _ _)
  · exact (settle_keepsRanges _ s).trans (forwardPath_keepsRanges _ _)

theorem onLevelB_keepsRanges (f : LevelFrame) (s : State) : KeepsRanges s (onLevelB f s) := by
  unfold onLevelB levelAtB
  repeat' split
  · exact errorAtSample_keepsRanges _ _ s
  · exact (settle_keepsRanges _ s).trans (acceptFrame_keepsRanges _ _ _)
  · exact settle_keepsRanges _ s

/-! ## Requests -/

/-- Carrying a command out lets nothing grow, so the room found for its reply is still there (R130). -/
def CarryGrowsNothing (carry : State → Carried) : Prop := ∀ s, NothingGrows s (carry s).state

/-- The reply to a request joins a queue with room, and its notices where there is still room (R130, R134, R189). -/
theorem finishRequest_keepsRanges (h : RequestHeader) (code : Byte) {c : Carried} (hroom : c.state.queue.length < 8) :
    KeepsRanges c.state (finishRequest h code c) := by
  have flagged := latchFlags_nothingGrows c.latches c.state
  have answered : ∀ r s, s.queue.length < 8 → KeepsRanges s (answer h code r s) := fun r s hs =>
    (joinQueue_keepsRanges _ _ (s := s.setReplay h.port _) hs).after rfl
  exact (flagged.keeps.trans (answered _ _ (flagged.queue.trans_lt hroom))).trans (offerNotices_keepsRanges _ _)

/-- An addressed request is answered only where the queue has room (R130, R133). -/
theorem addressed_keepsRanges {carry : State → Carried} (hc : CarryGrowsNothing carry) (h : RequestHeader)
    (code : Byte) (s : State) : KeepsRanges s (addressed h code carry s) := by
  unfold addressed
  repeat' split
  · rename_i hroom; exact (joinQueue_keepsRanges _ _ (s := s.setReplay h.port _) hroom).after rfl
  · exact latch_keepsRanges _ s
  · rename_i hroom
    exact (hc s).keeps.trans (finishRequest_keepsRanges _ _ ((hc s).queue.trans_lt hroom))
  · exact latch_keepsRanges _ s

theorem handOn_keepsRanges (h : RequestHeader) (code : Byte) (args : List Byte) (s : State) :
    KeepsRanges s (handOn h code args s) := by
  unfold handOn; split
  · exact forwardPath_keepsRanges _ _
  · exact .refl s

theorem broadcast_keepsRanges {carry : State → Carried} (hc : CarryGrowsNothing carry) (form : BroadcastForm)
    (h : RequestHeader) (code : Byte) (args : List Byte) (s : State) :
    KeepsRanges s (broadcast form h code args carry s) := by
  have on : ∀ s, KeepsRanges s (handOn h code args s) := handOn_keepsRanges h code args
  have carried : ∀ s, KeepsRanges s (carryBroadcast carry s) :=
    fun s => (hc s).keeps.trans (latchAll_keepsRanges _ _)
  cases form with
  | ignored => exact on s
  | restarts => exact (carried s).trans (on _)
  | acts =>
    unfold broadcast broadcastActing State.choose
    dsimp only
    repeat' split
    · exact ((carried _).trans (on _)).after rfl
    · exact ((on _).trans (carried _)).after rfl
    · exact (carried s).trans (on _)

theorem onRequest_keepsRanges {carry : State → Carried} (hc : CarryGrowsNothing carry) (form : BroadcastForm)
    (h : RequestHeader) (code : Byte) (args : List Byte) (s : State) :
    KeepsRanges s (onRequest form h code args carry s) := by
  unfold onRequest takeRequest
  repeat' split
  · exact errorAtSample_keepsRanges _ _ s
  · exact (settle_keepsRanges _ s).trans (addressed_keepsRanges hc _ _ _)
  · exact (settle_keepsRanges _ s).trans (broadcast_keepsRanges hc _ _ _ _ _)
  · exact (settle_keepsRanges _ s).trans (handOn_keepsRanges _ _ _ _)

theorem guardReserved_growsNothing {carry : State → Carried} (hc : CarryGrowsNothing carry) (h : RequestHeader) :
    CarryGrowsNothing (guardReserved h carry) := by
  intro s; unfold guardReserved; split
  · exact hc s
  · exact .of_same rfl

theorem carryForce_growsNothing (first count : BitVec 16) (level : Level) (profile : Byte) :
    CarryGrowsNothing (carryForce first count level profile) := by
  intro s; unfold carryForce; repeat' split
  all_goals exact .of_same rfl

theorem carryRelease_growsNothing (first count : BitVec 16) : CarryGrowsNothing (carryRelease first count) := by
  intro s; unfold carryRelease; split <;> exact .of_same rfl

theorem carrySaveScene_growsNothing (scene : Byte) : CarryGrowsNothing (carrySaveScene scene) := by
  intro s; unfold carrySaveScene; split <;> exact .of_same rfl

theorem TableName.entries_pos (t : TableName) : 0 < t.entries := by cases t <;> decide

/-- The write pointer that a session starts with is in range (R156). -/
theorem pointerInRange_of_start {s : State} (h : s.pointer = ⟨.config, 0⟩) : s.PointerInRange := by
  unfold State.PointerInRange; rw [h]; exact TableName.config.entries_pos

/-- A new session's write pointer is entry 0 of CONFIG, and otherwise the pointer stands (R156, R159). -/
theorem carryOpen_growsNothing (o : SessionOwner) : CarryGrowsNothing (carryOpen o) := by
  intro s; unfold carryOpen; split
  · exact .of_same rfl
  · split
    · exact ⟨rfl, le_rfl, le_rfl, le_rfl, le_rfl, fun _ => pointerInRange_of_start rfl⟩
    · split <;> exact .of_same rfl
    all_goals exact .of_same rfl

/-- A write wraps the write pointer at the end of its table (R159). -/
theorem writeCarried_growsNothing (o : SessionOwner) (t : TableName) (start : Nat) (entries : List (List Byte))
    (s : State) : NothingGrows s (writeCarried o t start entries s).state := by
  have written : NothingGrows s (writeEntries t start entries s) := by cases t <;> exact .of_same rfl
  exact { written with pointer := fun _ => Nat.mod_lt _ t.entries_pos }

theorem carryWrite_growsNothing (o : SessionOwner) (table : Byte) (index : BitVec 16) (count : Byte)
    (entries : List Byte) : CarryGrowsNothing (carryWrite o table index count entries) := by
  intro s; unfold carryWrite; repeat' split
  · exact .of_same rfl
  · exact .of_same rfl
  · exact .of_same rfl
  · exact .of_same rfl
  · exact writeCarried_growsNothing _ _ _ _ s

theorem carryCommit_growsNothing (o : SessionOwner) (expected : Crc32) : CarryGrowsNothing (carryCommit o expected) := by
  intro s; unfold carryCommit; split <;> exact .of_same rfl

theorem carryAbort_growsNothing (o : SessionOwner) : CarryGrowsNothing (carryAbort o) := by
  intro s; unfold carryAbort; repeat' split
  all_goals exact .of_same rfl

/-- A warm restart empties the queue and the FIFOs, clears the missed-refresh count and the write pointer, and keeps the
output sequence (R121, R145). -/
theorem carryRestart_growsNothing : CarryGrowsNothing carryRestart := by
  intro s
  obtain ⟨-, hqueue, hforward, hrelay, -⟩ := warmRestart_links s
  have missed : (warmRestart s).missed = 0 := rfl
  have pointer : (warmRestart s).pointer = ⟨.config, 0⟩ := rfl
  show NothingGrows s (warmRestart s)
  exact ⟨(warmRestart_steady s).nextSequence, by simp [hqueue], by simp [hforward], by simp [hrelay],
    by simp [missed], fun _ => pointerInRange_of_start pointer⟩

/-! ## Frames and characters -/

/-- A completing frame, whatever command it is (R13). -/
theorem runFrameCommand_keepsRanges (i : Instr) (s : State) : KeepsRanges s (runFrameCommand i s) := by
  have request : ∀ {carry : State → Carried}, CarryGrowsNothing carry → ∀ form h code args,
      KeepsRanges s (onRequest form h code args (guardReserved h carry) s) :=
    fun hc form h code args => onRequest_keepsRanges (guardReserved_growsNothing hc h) form h code args s
  have read : ∀ {carry : State → Carried}, (∀ s, (carry s).state = s) → CarryGrowsNothing carry :=
    fun hc s => by rw [hc]; exact .of_same rfl
  cases i <;> simp only [runFrameCommand]
  case levelFrameA f => exact onLevelA_keepsRanges f s
  case levelFrameB f => exact onLevelB_keepsRanges f s
  case forwardFrame f => exact (settle_keepsRanges _ s).trans (forwardPath_keepsRanges _ _)
  case relayFrame f => exact (settle_keepsRanges _ s).trans (relayPath_keepsRanges _ _)
  case bFrameDiscarded f => exact settle_keepsRanges _ s
  case requestNotTaken h code args => exact (settle_keepsRanges _ s).trans (handOn_keepsRanges _ _ _ _)
  case badCommand h code args => exact onRequest_keepsRanges (read fun _ => rfl) _ _ _ _ _
  case identify h extra => exact request (read fun _ => rfl) _ _ _ _
  case readStatus h extra => exact request (read fun _ => rfl) _ _ _ _
  case readChannels h f c e => exact request (read (carryReadChannels_state f c)) _ _ _ _
  case readInputs h p f c e => exact request (read (carryReadInputs_state p f c)) _ _ _ _
  case readTable h b t i c e => exact request (read (carryReadTable_state b t i c)) _ _ _ _
  case openSession h t e => exact request (carryOpen_growsNothing _) _ _ _ _
  case writeTable h t tb i c e => exact request (carryWrite_growsNothing _ _ _ _ _) _ _ _ _
  case commit h t x e => exact request (carryCommit_growsNothing _ _) _ _ _ _
  case abortSession h t e => exact request (carryAbort_growsNothing _) _ _ _ _
  case force h f c l p e => exact request (carryForce_growsNothing _ _ _ _) _ _ _ _
  case release h f c e => exact request (carryRelease_growsNothing _ _) _ _ _ _
  case saveScene h sc e => exact request (carrySaveScene_growsNothing _) _ _ _ _
  case ackConditions h k e => exact request (carry := carryAck k) (fun _ => .of_same rfl) _ _ _ _
  case restart h e => exact request carryRestart_growsNothing _ _ _ _
  all_goals exact .refl s

theorem completeFrame_keepsRanges (r : Receiver) (f : Frame) (s : State) : KeepsRanges s (completeFrame r f s) := by
  unfold completeFrame; split
  · exact errorAtSample_keepsRanges _ _ s
  · exact runFrameCommand_keepsRanges _ s

theorem interFrameIdleOp_keepsRanges (r : Receiver) (s : State) : KeepsRanges s (interFrameIdleOp r s) := by
  unfold interFrameIdleOp; dsimp only; split <;> exact .of_same rfl

theorem truncatedOp_keepsRanges (r : Receiver) (s : State) : KeepsRanges s (truncatedOp r s) := by
  unfold truncatedOp; dsimp only; split
  · exact (receiveErrorOp_keepsRanges _ _ _).after rfl
  · exact .refl s

theorem goodCharacterOp_keepsRanges (r : Receiver) (b : Byte) (s : State) :
    KeepsRanges s (goodCharacterOp r b s) := by
  unfold goodCharacterOp receiveByte
  dsimp only
  repeat' split
  all_goals first
    | exact errorAtSample_keepsRanges _ _ s
    | exact completeFrame_keepsRanges _ _ s
    | exact .of_same rfl

theorem badCharacterOp_keepsRanges (r : Receiver) (s : State) : KeepsRanges s (badCharacterOp r s) := by
  unfold badCharacterOp
  dsimp only
  split
  · exact .of_same rfl
  · exact .of_same rfl
  · exact errorAtSample_keepsRanges _ _ s

theorem characterOp_keepsRanges (r : Receiver) (w : BitVec 10) (s : State) : KeepsRanges s (characterOp r w s) := by
  have truncate : ∀ n s, KeepsRanges s (truncateBefore r n s) := by
    intro n s; unfold truncateBefore; repeat' split
    · exact truncatedOp_keepsRanges r s
    all_goals exact .refl s
  have hunt : ∀ n s, KeepsRanges s (huntBefore r n s) := by
    intro n s; unfold huntBefore; repeat' split
    · exact interFrameIdleOp_keepsRanges r s
    all_goals exact .refl s
  have before : ∀ n m s, KeepsRanges s ((huntBefore r n (truncateBefore r n s)).reach m) :=
    fun n m s => ((truncate n s).trans (hunt n _)).trans (.of_same rfl)
  unfold characterOp takeCharacter
  dsimp only
  repeat' split
  · exact .refl s
  · exact .refl s
  · exact (before _ _ s).trans (goodCharacterOp_keepsRanges _ _ _)
  · exact (before _ _ s).trans (badCharacterOp_keepsRanges _ _)

/-! ## Timers, session and transmitters -/

theorem stateReport_keepsRanges (p : Port) (s : State) : KeepsRanges s (stateReport p s) := resolve_keepsRanges _ s

theorem lossExpiryOp_keepsRanges (p : Port) (s : State) : KeepsRanges s (lossExpiryOp p s) := by
  have set : ∀ u s, KeepsRanges s (s.setPort p u) := fun _ _ => .of_same rfl
  have event : ∀ n s, KeepsRanges s (lossEvent p n s) := by
    intro n s
    unfold lossEvent
    dsimp only
    split
    · exact (set _ s).trans (stateReport_keepsRanges _ _)
    · split
      · exact (((set _ s).trans (latch_keepsRanges _ _)).trans (latch_keepsRanges _ _)).trans
          (stateReport_keepsRanges _ _)
      · exact ((set _ s).trans (latch_keepsRanges _ _)).trans (stateReport_keepsRanges _ _)
    all_goals exact set _ s
  unfold lossExpiryOp; split
  · exact .refl s
  · exact (event _ (s.reach _)).after rfl

theorem holdExpiryOp_keepsRanges (p : Port) (s : State) : KeepsRanges s (holdExpiryOp p s) := by
  have set : ∀ u s, KeepsRanges s (s.setPort p u) := fun _ _ => .of_same rfl
  have event : ∀ s, KeepsRanges s (holdEvent p s) := by
    intro s
    unfold holdEvent
    dsimp only
    split
    · exact ((set _ s).trans (latch_keepsRanges _ _)).trans (stateReport_keepsRanges _ _)
    all_goals exact set _ s
  unfold holdExpiryOp; split
  · exact .refl s
  · exact (event (s.reach _)).after rfl

theorem sessionExpiryOp_keepsRanges (s : State) : KeepsRanges s (sessionExpiryOp s) := by
  unfold sessionExpiryOp; split
  · exact (latch_keepsRanges _ _).after rfl
  all_goals exact .refl s

theorem verificationCompleteOp_keepsRanges (s : State) : KeepsRanges s (verificationCompleteOp s) := by
  unfold verificationCompleteOp
  dsimp only
  repeat' split
  · exact .of_same rfl
  · exact (latch_keepsRanges _ _).after rfl
  all_goals exact .refl s

theorem copyCompleteOp_keepsRanges (s : State) : KeepsRanges s (copyCompleteOp s) := by
  unfold copyCompleteOp; split <;> exact .of_same rfl

theorem fadeTickOp_keepsRanges (s : State) : KeepsRanges s (fadeTickOp s) := by
  unfold fadeTickOp; dsimp only; repeat' split
  all_goals exact .of_same rfl

/-- The entry that leaves makes room for the pending notice that moves in (R138, R190). -/
theorem entryCompleted_keepsRanges (p : Port) (s : State) : KeepsRanges s (entryCompleted p s) := by
  unfold entryCompleted; split
  · rename_i q hq
    obtain ⟨l, e, r, hqueue, -, rfl⟩ := removeSending_some hq
    have shorter : (l ++ r).length < s.queue.length := by rw [hqueue]; simp
    refine .of_linked (Linked.trans (t := { s with queue := l ++ r }) rfl (drainPending_noticed _).linked) fun h => ?_
    have hroom : (l ++ r).length < 8 := shorter.trans_le h.1
    unfold drainPending; split
    · exact joinQueue_withinCapacity _ _ hroom ⟨hroom.le, h.2⟩
    · exact ⟨hroom.le, h.2⟩
  · exact .refl s

theorem transmitCompleteOp_keepsRanges (x : Transmitter) (s : State) : KeepsRanges s (transmitCompleteOp x s) := by
  have output : ∀ s, KeepsRanges s (outputCompleted s) := by
    intro s; unfold outputCompleted; split <;> exact .of_same rfl
  unfold transmitCompleteOp
  split
  · cases x
    · exact (output _).after rfl
    · exact (entryCompleted_keepsRanges .a _).after rfl
    · exact (entryCompleted_keepsRanges .b _).after rfl
  all_goals exact .refl s

theorem gapEndOp_keepsRanges (x : Transmitter) (s : State) : KeepsRanges s (gapEndOp x s) := by
  unfold gapEndOp; split
  · exact (serve_nothingGrows x ((s.reach _).setTx x .free)).keeps.after rfl
  all_goals exact .refl s

/-! ## Commands -/

theorem releaseReset_keepsRanges (straps : BitVec 6) (a b d : Bool) (s : State) :
    KeepsRanges s (releaseReset straps a b d s) := by
  rw [releaseReset_eq]; split
  · exact (latch_keepsRanges _ (releasedPart straps a b d s)).after rfl
  · exact .of_same rfl

theorem execPauseAssert_keepsRanges {s t : State} (h : execPauseAssert s = .next t) : KeepsRanges s t := by
  unfold execPauseAssert at h
  repeat' split at h
  all_goals
    injection h with h
    subst h
  · exact .refl s
  · exact .of_same rfl
  · exact (latch_keepsRanges .paused { s with pause := true }).after rfl

/-- Every command but HARD_RESET and REFRESH_EXPIRY leaves the output sequence and keeps the ranges (R110). -/
theorem exec_keepsRanges {c : Instr} {s t : State} (hard : c ≠ .hardReset) (refresh : c ≠ .refreshExpiry)
    (h : exec c s = .next t) : KeepsRanges s t := by
  have w : ∀ {f : State → State}, KeepsRanges s (f s) → whenRunning f s = .next t → KeepsRanges s t := by
    intro f hf hh
    obtain rfl | ⟨-, rfl⟩ := whenRunning_cases hh
    · exact .refl _
    · exact hf
  have frame : ∀ i, whenRunning (runFrameCommand i) s = .next t → KeepsRanges s t :=
    fun i => w (runFrameCommand_keepsRanges i s)
  cases c <;> simp only [exec] at h
  case hardReset => exact absurd rfl hard
  case refreshExpiry => exact absurd rfl refresh
  case resetRelease x a b d =>
    unfold execResetRelease at h
    split at h
    · obtain rfl : releaseReset x a b d s = t := by injection h
      exact releaseReset_keepsRanges x a b d s
    · obtain rfl : s = t := by injection h
      exact .refl s
  case pauseAssert => exact execPauseAssert_keepsRanges h
  case pauseRelease =>
    obtain rfl : { s with pause := false } = t := by injection h
    exact .of_same rfl
  case fadeTick => exact w (fadeTickOp_keepsRanges s) h
  case interFrameIdle r => exact w (interFrameIdleOp_keepsRanges r s) h
  case truncated r => exact w (truncatedOp_keepsRanges r s) h
  case receiveError r e =>
    refine w ?_ h; unfold receiveErrorEvent; split
    · exact .refl s
    · exact errorAtSample_keepsRanges _ _ _
  case lineReturnHigh r => refine w ?_ h; unfold lineReturnHighOp; dsimp only; split <;> exact .of_same rfl
  case characterReceived r x => exact w (characterOp_keepsRanges r x s) h
  case lossExpiry p => exact w (lossExpiryOp_keepsRanges p s) h
  case holdExpiry p => exact w (holdExpiryOp_keepsRanges p s) h
  case sessionExpiry => exact w (sessionExpiryOp_keepsRanges s) h
  case verificationComplete => exact w (verificationCompleteOp_keepsRanges s) h
  case copyComplete => exact w (copyCompleteOp_keepsRanges s) h
  case transmitComplete x => exact w (transmitCompleteOp_keepsRanges x s) h
  case gapEnd x => exact w (gapEndOp_keepsRanges x s) h
  case forwardFrame | relayFrame | bFrameDiscarded | requestNotTaken | badCommand =>
    exact w (completeFrame_keepsRanges _ _ s) h
  case levelFrameA f => exact frame (.levelFrameA f) h
  case levelFrameB f => exact frame (.levelFrameB f) h
  case identify h' e => exact frame (.identify h' e) h
  case readStatus h' e => exact frame (.readStatus h' e) h
  case readChannels h' f c e => exact frame (.readChannels h' f c e) h
  case readInputs h' p f c e => exact frame (.readInputs h' p f c e) h
  case readTable h' b t' i c e => exact frame (.readTable h' b t' i c e) h
  case openSession h' t' e => exact frame (.openSession h' t' e) h
  case writeTable h' t' tb i c e => exact frame (.writeTable h' t' tb i c e) h
  case commit h' t' x e => exact frame (.commit h' t' x e) h
  case abortSession h' t' e => exact frame (.abortSession h' t' e) h
  case force h' f c l p e => exact frame (.force h' f c l p e) h
  case release h' f c e => exact frame (.release h' f c e) h
  case saveScene h' sc e => exact frame (.saveScene h' sc e) h
  case ackConditions h' k e => exact frame (.ackConditions h' k e) h
  case restart h' e => exact frame (.restart h' e) h

/-! ## REFRESH_EXPIRY -/

theorem changeover_keepsRanges (k : Crc32) (s : State) : KeepsRanges s (changeover k s) := by
  have tick : ∀ s, KeepsRanges s (tickWithin s) := fun s => by rw [tickWithin_rest]; exact .of_same rfl
  have silence : ∀ old p s, KeepsRanges s (silenceIfAltered old p s) :=
    fun old p s => by rw [silenceIfAltered_rest]; exact .of_same rfl
  unfold changeover
  dsimp only
  have latched : KeepsRanges s (latch .commitDone (exchangeBanks k s)) := (latch_keepsRanges _ _).after rfl
  exact ((latched.trans (tick _)).trans ((silence _ _ _).trans (silence _ _ _))).trans
    ((resolve_keepsRanges _ (clearOwners _)).after rfl)

/-- A snapshot raises the output sequence by 1 modulo 256, and its changeover, if it makes one, leaves it (R109 to R111). -/
theorem takeSnapshot_keepsRanges (s : State) :
    KeepsRanges { s with nextSequence := s.nextSequence + 1 } (takeSnapshot s) := by
  have offered : KeepsRanges { s with nextSequence := s.nextSequence + 1 }
      (serveD { s with output := .waiting s.outputSnapshot, nextSequence := s.nextSequence + 1 }) :=
    (serveD_nothingGrows _).keeps.after rfl
  unfold takeSnapshot toldOfSnapshot
  split
  · exact offered.trans (changeover_keepsRanges _ _)
  all_goals exact offered

/-- An output frame that waits goes on waiting, or D-tx takes it (R112, R113). -/
theorem serveD_output_of_waiting {s : State} {f : Frame} (h : s.output = .waiting f) :
    (serveD s).output = .waiting f ∨ (serveD s).output = .sending f := by
  obtain ⟨g, -, hg, e⟩ | ⟨g, rest, -, hnone, -⟩ | ⟨-, e⟩ := serveD_cases s
  · obtain rfl : g = f := by rw [h] at hg; injection hg with hg; exact hg.symm
    exact .inr (by rw [e]; rfl)
  · exact absurd h (hnone f)
  · exact .inl (by rw [e, h])

/-- The frame of a snapshot waits, or D-tx has taken it, whether or not a changeover follows (R109, R112). -/
theorem takeSnapshot_output (s : State) :
    (takeSnapshot s).output = .waiting s.outputSnapshot ∨ (takeSnapshot s).output = .sending s.outputSnapshot := by
  have told : ∀ u, (toldOfSnapshot u).output = u.output := by
    intro u; unfold toldOfSnapshot; split
    · obtain ⟨-, -, -, -, -, h⟩ := changeover_facts _ u
      exact h.output
    all_goals rfl
  unfold takeSnapshot
  rw [told]
  exact serveD_output_of_waiting rfl

/-- An expiry that finds the output frame EMPTY takes a snapshot (R107, R108). -/
theorem exec_refreshExpiry_empty {n : Nat} {s : State} (hs : s.inReset = false) (hn : s.refreshAt = some n)
    (ho : s.output = .empty) : exec .refreshExpiry s = .next (restartRefresh n (takeSnapshot (s.reach n))) := by
  refine (whenRunning_next hs).trans ?_
  unfold refreshExpiryOp
  simp only [hn, reach_output, ho]

/-- The byte of a snapshot's payload after the stream number is the output sequence (R109, R199). -/
theorem outputSnapshot_sequence (s : State) : s.outputSnapshot.payload[1]? = some s.nextSequence := rfl

/-- A missed refresh stops counting at 65535, and a snapshot raises nothing but the output sequence (R108, R110). -/
theorem refreshExpiryOp_ranges (s : State) :
    (s.WithinCapacity → (refreshExpiryOp s).WithinCapacity) ∧
      (s.PointerInRange → (refreshExpiryOp s).PointerInRange) := by
  unfold refreshExpiryOp
  split
  · exact ⟨id, id⟩
  · rename_i n _
    dsimp only
    split
    · have taken := takeSnapshot_keepsRanges (s.reach n)
      exact ⟨taken.capacity, taken.pointer⟩
    all_goals exact ⟨fun ⟨hqueue, hforward, hrelay, _⟩ => ⟨hqueue, hforward, hrelay, Nat.min_le_right _ _⟩, id⟩

/-! ## The claims -/

/-- Every command keeps the capacities and the write pointer in range. -/
theorem exec_ranges {c : Instr} {s t : State} (h : exec c s = .next t) :
    (s.WithinCapacity → t.WithinCapacity) ∧ (s.PointerInRange → t.PointerInRange) := by
  by_cases hard : c = .hardReset
  · subst hard
    obtain rfl : heldInReset s = t := by injection h
    exact ⟨fun _ => ⟨Nat.zero_le _, Nat.zero_le _, Nat.zero_le _, Nat.zero_le _⟩,
      fun _ => pointerInRange_of_start rfl⟩
  by_cases refresh : c = .refreshExpiry
  · subst refresh
    obtain rfl | ⟨-, rfl⟩ := whenRunning_cases h
    · exact ⟨id, id⟩
    · exact refreshExpiryOp_ranges s
  exact ⟨(exec_keepsRanges hard refresh h).capacity, (exec_keepsRanges hard refresh h).pointer⟩

/-- Six straps read as 1 to 63, since 0 reads as 63 (R127). -/
theorem nodeOfStraps_inRange (straps : BitVec 6) :
    1 ≤ (nodeOfStraps straps).toNat ∧ (nodeOfStraps straps).toNat ≤ 63 := by
  unfold nodeOfStraps
  split
  · decide
  · rename_i h
    have hne : straps.toNat ≠ 0 := fun e => h (BitVec.eq_of_toNat_eq e)
    have hlt := straps.isLt
    rw [BitVec.toNat_setWidth]
    omega

/-- Every command leaves the node address, but for a release of RESET, which reads the straps (R127). -/
theorem exec_node {c : Instr} {s t : State} (h : exec c s = .next t) :
    t.node = s.node ∨ ∃ straps, t.node = nodeOfStraps straps := by
  by_cases hard : c = .hardReset
  · subst hard
    obtain rfl : heldInReset s = t := by injection h
    exact .inl rfl
  by_cases release : ∃ x a b d, c = .resetRelease x a b d
  · obtain ⟨x, a, b, d, rfl⟩ := release
    simp only [exec, execResetRelease] at h
    split at h
    · obtain rfl : releaseReset x a b d s = t := by injection h
      refine .inr ⟨x, ?_⟩
      rw [releaseReset_eq]; split
      · exact (latch_noticed _ _).node
      · rfl
    · obtain rfl : s = t := by injection h
      exact .inl rfl
  by_cases hassert : c = .pauseAssert
  · subst hassert
    simp only [exec, execPauseAssert] at h
    repeat' split at h
    all_goals
      injection h with h
      subst h
    · exact .inl rfl
    · exact .inl rfl
    · exact .inl (latch_noticed _ _).node
  by_cases hpause : c = .pauseRelease
  · subst hpause
    obtain rfl : { s with pause := false } = t := by injection h
    exact .inl rfl
  have fixed := exec_fixed hard (fun x a b d e => release ⟨x, a, b, d, e⟩) hassert hpause h
  simp only [Fixed, Prod.mk.injEq] at fixed
  obtain ⟨-, hnode, -⟩ := fixed
  exact .inl hnode

theorem exec_nodeInRange {c : Instr} {s t : State} (hs : s.NodeInRange) (h : exec c s = .next t) : t.NodeInRange := by
  unfold State.NodeInRange at *
  obtain e | ⟨straps, e⟩ := exec_node h <;> rw [e]
  · exact hs
  · exact nodeOfStraps_inRange straps

/-- Settles O52: whatever joins a queue or a FIFO finds room first, a write wraps the pointer at the end of its table, and
the straps name the node. -/
theorem rangesHold : Obligations.RangesHold :=
  ⟨keptByEveryStep_of_exec (fun _ _ _ _ h => h) fun _ _ _ h he => (exec_ranges he).1 h,
    keptByEveryStep_of_exec (fun _ _ _ _ h => h) fun _ _ _ => exec_nodeInRange,
    keptByEveryStep_of_exec (fun _ _ _ _ h => h) fun _ _ _ h he => (exec_ranges he).2 h⟩

/-- Settles O31: a snapshot numbers its frame and raises the number, and no operation of another command changes it. -/
theorem outputSequenceCountsSnapshots : Obligations.OutputSequenceCountsSnapshots := by
  refine ⟨fun n s hs hn ho => ?_, fun n s hs hn ho => ⟨_, exec_refreshExpiry_missed hs hn ho, rfl⟩,
    fun s => ⟨_, rfl, rfl⟩, fun c s t refresh hard h => (exec_keepsRanges hard refresh h).sequence⟩
  have raised : (takeSnapshot (s.reach n)).nextSequence = s.nextSequence + 1 :=
    (takeSnapshot_keepsRanges (s.reach n)).sequence
  refine ⟨_, _, exec_refreshExpiry_empty hs hn ho, takeSnapshot_output (s.reach n),
    outputSnapshot_sequence (s.reach n), ?_⟩
  show (takeSnapshot (s.reach n)).nextSequence.toNat = _
  rw [raised]
  exact BitVec.toNat_add _ _

end Sys2Proof.Machine
end

section
/-! Requests addressed to this part: replays, the full reply queue, the general checks and refusals (O32, O34, O33). -/

namespace Sys2Proof.Machine

/-! ## Refusals -/

/-- Carrying a command out with another result than OK and ACCEPTED leaves the state, without data and without a latching
(R134). -/
def RefusesQuietly (carry : State → Carried) : Prop :=
  ∀ s, (carry s).result = .ok ∨ (carry s).result = .accepted ∨ carry s = refuseWith (carry s).result s

theorem refuseWith_quiet (r : Result) : RefusesQuietly (refuseWith r) := fun _ => .inr (.inr rfl)

theorem carryIdentify_quiet : RefusesQuietly carryIdentify := fun _ => .inl rfl

theorem carryReadStatus_quiet : RefusesQuietly carryReadStatus := fun _ => .inl rfl

theorem carryReadChannels_quiet (first : BitVec 16) (count : Byte) : RefusesQuietly (carryReadChannels first count) := by
  intro s; unfold carryReadChannels; split
  · exact refuseWith_quiet _ s
  · exact .inl rfl

theorem carryReadInputs_quiet (port : Byte) (first : BitVec 16) (count : Byte) :
    RefusesQuietly (carryReadInputs port first count) := by
  intro s; unfold carryReadInputs; split
  · exact refuseWith_quiet _ s
  · split
    · exact refuseWith_quiet _ s
    · exact .inl rfl

/-- A READ_TABLE with its arguments passed is refused only during a bank copy (R176). -/
theorem readTableAnswer_quiet (bank : BankName) (t : TableName) (index : BitVec 16) (count : Byte) :
    RefusesQuietly (readTableAnswer bank t index count) := by
  intro s
  cases t
  case scenes => exact .inl rfl
  all_goals
    cases bank with
    | active => exact .inl rfl
    | shadow =>
      unfold readTableAnswer
      cases s.session with
      | copying => exact refuseWith_quiet _ s
      | noSession | opened | verifying | armed => exact .inl rfl

theorem carryReadTable_quiet (bank table : Byte) (index : BitVec 16) (count : Byte) :
    RefusesQuietly (carryReadTable bank table index count) := by
  intro s; unfold carryReadTable; split
  · split
    · exact refuseWith_quiet _ s
    · exact readTableAnswer_quiet _ _ _ _ s
  · exact refuseWith_quiet _ s

theorem carryOpen_quiet (o : SessionOwner) : RefusesQuietly (carryOpen o) := by
  intro s; unfold carryOpen; split
  · exact refuseWith_quiet _ s
  · cases s.session with
    | noSession => exact .inl rfl
    | opened owner n =>
      dsimp only
      split
      · exact .inl rfl
      · exact refuseWith_quiet _ s
    | verifying | armed | copying => exact refuseWith_quiet _ s

theorem carryWrite_quiet (o : SessionOwner) (table : Byte) (index : BitVec 16) (count : Byte) (entries : List Byte) :
    RefusesQuietly (carryWrite o table index count entries) := by
  intro s; unfold carryWrite; split
  · exact refuseWith_quiet _ s
  · split
    · exact refuseWith_quiet _ s
    · split
      · exact refuseWith_quiet _ s
      · split
        · exact refuseWith_quiet _ s
        · exact .inl rfl

theorem carryCommit_quiet (o : SessionOwner) (expected : Crc32) : RefusesQuietly (carryCommit o expected) := by
  intro s; unfold carryCommit; split
  · exact refuseWith_quiet _ s
  · exact .inr (.inl rfl)

theorem carryAbort_quiet (o : SessionOwner) : RefusesQuietly (carryAbort o) := by
  intro s; unfold carryAbort
  have owned : ∀ owner,
      RefusesQuietly fun s => if o = owner then ⟨startCopy s, .ok, [], []⟩ else refuseWith .locked s := by
    intro owner s; dsimp only; split
    · exact .inl rfl
    · exact refuseWith_quiet _ s
  cases s.session with
  | noSession | copying | armed => exact refuseWith_quiet _ s
  | opened owner | verifying owner => exact owned owner s

theorem carryForce_quiet (first count : BitVec 16) (level : Level) (profile : Byte) :
    RefusesQuietly (carryForce first count level profile) := by
  intro s; unfold carryForce; split
  · split
    · exact .inl rfl
    · exact refuseWith_quiet _ s
  · exact refuseWith_quiet _ s

theorem carryRelease_quiet (first count : BitVec 16) : RefusesQuietly (carryRelease first count) := by
  intro s; unfold carryRelease; split
  · exact .inl rfl
  · exact refuseWith_quiet _ s

theorem carrySaveScene_quiet (scene : Byte) : RefusesQuietly (carrySaveScene scene) := by
  intro s; unfold carrySaveScene; split
  · exact .inl rfl
  · exact refuseWith_quiet _ s

theorem carryAck_quiet (kinds : KindSet) : RefusesQuietly (carryAck kinds) := fun _ => .inl rfl

theorem carryRestart_quiet : RefusesQuietly carryRestart := fun _ => .inl rfl

/-! ## What an addressed request carries out -/

/-- A nonzero reserved field is refused whatever the command (R134, R203). -/
theorem guardReserved_refuses {h : RequestHeader} (hres : h.reserved ≠ 0) (carry : State → Carried) (s : State) :
    guardReserved h carry s = refuseWith .badArgument s := if_neg hres

/-- What carrying out a request with this header and code does: an unknown code is refused, and a known one looks at the
reserved field before its own meaning, which has no effect when it refuses (R134, R203). -/
inductive CheckedCarry (h : RequestHeader) (code : Byte) : (State → Carried) → Prop
  | unknown (hc : ∀ n, (code, n) ∉ commandCodes) : CheckedCarry h code carryBadCommand
  | known {carry : State → Carried} (n : Nat) (hc : (code, n) ∈ commandCodes) (hq : RefusesQuietly carry) :
      CheckedCarry h code (guardReserved h carry)

/-- Behind the general checks too a refusal has no effect (R134). -/
theorem CheckedCarry.quiet {h : RequestHeader} {code : Byte} {carry : State → Carried} (hc : CheckedCarry h code carry) :
    RefusesQuietly carry := by
  cases hc with
  | unknown => exact refuseWith_quiet _
  | known n _ hq =>
    intro s; unfold guardReserved; split
    · exact hq s
    · exact refuseWith_quiet _ s

/-- The event of a taken request command (R128, R204). -/
theorem runFrameCommand_taken {i : Instr} {h : RequestHeader} {code : Byte} {args : List Byte}
    (hp : requestParts i = some (h, code, args)) (hc : MeetsChecks i) (hn : i ≠ .requestNotTaken h code args) :
    ∃ form carry, CheckedCarry h code carry ∧ ∀ s, runFrameCommand i s = onRequest form h code args carry s := by
  have known : ∀ {form : BroadcastForm} {carry : State → Carried} (n : Nat), (code, n) ∈ commandCodes →
      RefusesQuietly carry → (∀ s, runFrameCommand i s = onRequest form h code args (guardReserved h carry) s) →
      ∃ form carry, CheckedCarry h code carry ∧ ∀ s, runFrameCommand i s = onRequest form h code args carry s :=
    fun n hcode hq hrun => ⟨_, _, .known n hcode hq, hrun⟩
  cases i <;> cases hp
  case requestNotTaken => exact absurd rfl hn
  case badCommand => exact ⟨_, _, .unknown hc, fun _ => rfl⟩
  case identify => exact known 0 (by decide) carryIdentify_quiet fun _ => rfl
  case readStatus => exact known 0 (by decide) carryReadStatus_quiet fun _ => rfl
  case readChannels => exact known 3 (by decide) (carryReadChannels_quiet _ _) fun _ => rfl
  case readInputs => exact known 4 (by decide) (carryReadInputs_quiet _ _ _) fun _ => rfl
  case readTable => exact known 5 (by decide) (carryReadTable_quiet _ _ _ _) fun _ => rfl
  case openSession => exact known 2 (by decide) (carryOpen_quiet _) fun _ => rfl
  case writeTable => exact known 6 (by decide) (carryWrite_quiet _ _ _ _ _) fun _ => rfl
  case commit => exact known 6 (by decide) (carryCommit_quiet _ _) fun _ => rfl
  case abortSession => exact known 2 (by decide) (carryAbort_quiet _) fun _ => rfl
  case force => exact known 7 (by decide) (carryForce_quiet _ _ _ _) fun _ => rfl
  case release => exact known 4 (by decide) (carryRelease_quiet _ _) fun _ => rfl
  case saveScene => exact known 1 (by decide) (carrySaveScene_quiet _) fun _ => rfl
  case ackConditions => exact known 2 (by decide) (carryAck_quiet _) fun _ => rfl
  case restart => exact known 0 (by decide) carryRestart_quiet fun _ => rfl

section

variable {c : Instr} {h : RequestHeader} {code : Byte} {args : List Byte} {s : State}

/-- A REQUEST frame for this node is the command of its code, also where it is written as one that is not taken
(R128, R200). -/
theorem exec_toThisNode (hp : requestParts c = some (h, code, args)) (hw : c.wellFormed = true) (hs : s.inReset = false)
    (hd : h.destination = s.node) :
    ∃ i, requestParts i = some (h, code, args) ∧ MeetsChecks i ∧ i ≠ .requestNotTaken h code args ∧
      exec c s = .next (runFrameCommand i s) := by
  obtain ⟨hlen, hchecks⟩ := (wellFormed_request hp).mp hw
  have decoded : ∀ {i}, requestParts i = some (h, code, args) → MeetsChecks i → i ≠ .requestNotTaken h code args →
      decodeFrame s.node (rxOf h.port) (requestFrame h code args) = .ok i := fun {i} hpi hci hni => by
    refine (decodeFrame_eq_ok (payload_requestFrame h code args ▸ hlen)).mpr
      ⟨encodeFrame_request hpi, hci, fun h' code' args' hp' => ?_⟩
    cases hpi.symm.trans hp'
    exact iff_of_false hni fun hx => hx.1 hd
  by_cases hnot : c = .requestNotTaken h code args
  · obtain ⟨i, hi⟩ := decodeCommand_some (h := h) (argsComplete_of_parts hp hchecks)
    obtain ⟨hpi, hci, hni⟩ := decodeCommand_parts hi
    refine ⟨i, hpi, hci, hni, ?_⟩
    rw [hnot, ← show completeFrame _ _ s = runFrameCommand i s from completeFrame_ok (decoded hpi hci hni)]
    exact whenRunning_next hs
  · exact ⟨c, hp, hchecks, hnot, exec_decoded hs (decoded hp hchecks hnot)⟩

/-- A request addressed to this part, whichever it is, is taken with its general checks (R128, R134). -/
theorem exec_request (hp : requestParts c = some (h, code, args)) (hw : c.wellFormed = true) (hs : s.inReset = false)
    (hd : h.destination = s.node) :
    ∃ form carry, CheckedCarry h code carry ∧ exec c s = .next (onRequest form h code args carry s) := by
  obtain ⟨i, hpi, hci, hni, hexec⟩ := exec_toThisNode hp hw hs hd
  obtain ⟨form, carry, hcarry, hrun⟩ := runFrameCommand_taken hpi hci hni
  exact ⟨form, carry, hcarry, hexec.trans (congrArg _ (hrun s))⟩

/-- A request addressed to this part: its receiver settles, then the replay check and the room check (R13, R130). -/
theorem exec_addressed (hp : requestParts c = some (h, code, args)) (hw : c.wellFormed = true) (hs : s.inReset = false)
    (hd : h.destination = s.node) :
    ∃ carry, exec c s = .next (addressed h code carry (settle (rxOf h.port) s)) := by
  obtain ⟨form, carry, -, hexec⟩ := exec_request hp hw hs hd
  obtain ⟨hlen, -⟩ := (wellFormed_request hp).mp hw
  refine ⟨carry, hexec.trans (congrArg _ ?_)⟩
  unfold onRequest takeRequest
  rw [if_neg (Nat.not_lt.mpr hlen)]
  exact if_pos hd

end

/-! ## Replays and the full reply queue -/

/-- A stored reply queued again changes the return lines and the record of its port only (R132). -/
theorem replayAgain_answers (r : Receiver) (h : RequestHeader) (p : ReplayRecord) (s : State) :
    let t := replayAgain h p (settle r s)
    Settled r s t ∧ OnlyAnswer s t ∧
      entries t.queue = entries s.queue ++ [(.reply { p.reply with summary := s.summaryByte }, h.port)] ∧
      t.replay = s.replay.set h.port (some { p with reply := { p.reply with summary := s.summaryByte } }) := by
  intro t
  set reply : Reply := { p.reply with summary := s.summaryByte }
  set u := (settle r s).setReplay h.port (some { p with reply := reply })
  have ht : t = joinQueue (.reply reply) h.port u := rfl
  have hframe : t = _ := ht.trans (joinQueue_frame _ _ _)
  have hrx : t.rx = (settle r s).rx := by rw [hframe]; rfl
  refine ⟨(settle_settled r s).of_rx hrx, ⟨?_, ?_⟩, ?_, ?_⟩
  · rw [ht, joinQueue_frame]; rfl
  · rw [ht]
    exact (joinQueue_serves (.reply reply) h.port u).1.congr rfl rfl rfl rfl rfl id rfl rfl rfl rfl rfl rfl
  · rw [ht]; exact joinQueue_entries _ _ u
  · rw [ht]; exact joinQueue_replay _ _ u

/-- An offer to a full queue reaches the pending set only (R189). -/
theorem offerNotice_full (k : Condition) {s : State} (hq : 8 ≤ s.queue.length) :
    offerNotice k s = { s with pendingNotices := (offerNotice k s).pendingNotices } := by
  unfold offerNotice
  rw [if_neg (show ¬ s.queue.length < Config.queueCapacity from Nat.not_lt.mpr hq)]
  split <;> rfl

/-- A latching with a full queue reaches the conditions only (R183, R189). -/
theorem latch_full (k : Condition) {s : State} (hq : 8 ≤ s.queue.length) :
    (latch k s).queue = s.queue ∧ (latch k s).relay = s.relay ∧ (latch k s).tx = s.tx ∧
      (latch k s).preference = s.preference := by
  have hflag := latchFlag_eq k s
  rw [latch_eq]
  split
  · rw [offerNotice_full k (by rw [hflag]; exact hq), hflag]
    exact ⟨rfl, rfl, rfl, rfl⟩
  · rw [hflag]
    exact ⟨rfl, rfl, rfl, rfl⟩

theorem replayMatch_some {h : RequestHeader} {code : Byte} {r : ReplayRecord} {s : State}
    (hr : s.replay.get h.port = some r) (htag : h.tag ≠ 0) (hsame : r.tag = h.tag) (hcode : r.command = code) :
    replayMatch h code s = some r := by
  unfold replayMatch
  rw [hr]
  exact if_pos ⟨htag, hsame, hcode⟩

/-- Replay or not, an addressed request that finds no room latches REPLY_OVERFLOW (R133). -/
theorem addressed_full {h : RequestHeader} {code : Byte} {carry : State → Carried} {s : State} (hq : 8 ≤ s.queue.length) :
    addressed h code carry s = latch .replyOverflow s := by
  unfold addressed
  split <;> exact if_neg (Nat.not_lt.mpr hq)

/-- Settles O32: the replay check and the room check come before anything that a command carries out. -/
theorem replaysAndFullQueues : Obligations.ReplaysAndFullQueues := by
  refine ⟨fun c h code args r s hp hw hs hd hr htag hsame hcode hq => ?_, fun c h code args s hp hw hs hd hq => ?_⟩
  · obtain ⟨carry, hexec⟩ := exec_addressed hp hw hs hd
    have hreplay : addressed h code carry (settle (rxOf h.port) s) = replayAgain h r (settle (rxOf h.port) s) := by
      unfold addressed
      rw [replayMatch_some (s := settle (rxOf h.port) s) hr htag hsame hcode]
      exact if_pos hq
    exact ⟨_, hexec.trans (congrArg _ hreplay), replayAgain_answers _ h r s⟩
  · obtain ⟨carry, hexec⟩ := exec_addressed hp hw hs hd
    obtain ⟨hlatches, honly⟩ := latch_besideRx .replyOverflow (s := s) (u := settle (rxOf h.port) s) rfl
    exact ⟨_, hexec.trans (congrArg _ (addressed_full hq)), (settle_settled _ s).of_rx (latch_noticed _ _).rx, hlatches,
      honly, latch_full .replyOverflow (s := settle (rxOf h.port) s) hq⟩

/-! ## Refused requests -/

/-- The record that an executed request leaves holds the result of carrying it out (R131, R134). -/
theorem finishRequest_result {h : RequestHeader} {code : Byte} {c : Carried} {r : ReplayRecord}
    (hr : (finishRequest h code c).replay.get h.port = some r) : r.reply.result = c.result := by
  obtain ⟨-, -, -, -, hreplay⟩ := finishRequest_answered h code c
  rw [hreplay, PerPort.get_set, if_pos rfl] at hr
  cases hr
  rfl

/-- Settles O33: what refuses leaves the state to the answer, whichever of the checks refuses. -/
theorem refusedRequestsHaveNoEffect : Obligations.RefusedRequestsHaveNoEffect := by
  intro c h code args s t r hp hw he hexec hr hok haccepted
  obtain ⟨form, carry, hcarry, hrequest⟩ := exec_request hp hw he.1 he.2.1
  obtain rfl : onRequest form h code args carry s = t := by rw [hexec] at hrequest; injection hrequest with e; exact e.symm
  have hresult : r.reply.result = (carry (settle (rxOf h.port) s)).result :=
    finishRequest_result (by rw [← onRequest_executed he]; exact hr)
  rw [hresult] at hok haccepted ⊢
  have hrefused := ((hcarry.quiet _).resolve_left hok).resolve_left haccepted
  exact executed_same he hrefused

/-! ## The general checks -/

/-- Settles O34: the unknown code is refused by the command itself, the reserved field before any command's meaning. -/
theorem generalChecksComeFirst : Obligations.GeneralChecksComeFirst := by
  refine ⟨fun h code args s hw he => ?_, fun c h code args s hp hw he hres hknown => ?_⟩
  · obtain ⟨form, carry, hcarry, hexec⟩ := exec_request (c := .badCommand h code args) rfl hw he.1 he.2.1
    have hcodes : ∀ n, (code, n) ∉ commandCodes := ((wellFormed_request rfl).mp hw).2
    cases hcarry with
    | unknown =>
      obtain ⟨hsettled, honly, hanswered⟩ := executed_same (form := form) (carry := carryBadCommand) he rfl
      exact ⟨_, hexec, hsettled, hanswered, honly⟩
    | known n hcode => exact absurd hcode (hcodes n)
  · obtain ⟨form, carry, hcarry, hexec⟩ := exec_request hp hw he.1 he.2.1
    obtain ⟨n, hcode⟩ := hknown
    cases hcarry with
    | unknown hcodes => exact absurd hcode (hcodes n)
    | known =>
      obtain ⟨hsettled, honly, hanswered⟩ := executed_same (form := form) he (guardReserved_refuses hres _ _)
      exact ⟨_, hexec, hsettled, hanswered, honly⟩

end Sys2Proof.Machine
end

section
/-! IDENTIFY and READ_STATUS (O36). -/

namespace Sys2Proof.Machine

/-- The tables and the banks as chapter 8 gives them (R150). -/
theorem tables_asGiven : TablesAsGiven := by
  refine ⟨fun s => ⟨rfl, fun h => ?_, fun h => ?_⟩, fun tbl => ?_⟩
  · unfold State.activeBank State.shadowBank; rw [h]; exact ⟨rfl, rfl⟩
  · unfold State.activeBank State.shadowBank; rw [h]; exact ⟨rfl, rfl⟩
  · cases tbl <;> rfl

theorem Session.code_asGiven (x : Session) : x.code = match x with
    | .noSession => 0 | .opened _ _ => 1 | .verifying _ _ _ => 2 | .armed _ _ => 3 | .copying _ => 4 := by
  cases x <;> rfl

/-- The owner fields of the status record (R208, R214). -/
theorem ownerBytes_asGiven (x : Session) : ownerBytes x.owner = match x with
    | .opened o _ | .verifying o _ _ | .armed o _ => (if o.port = .a then 0 else 1) :: bytes16 o.token
    | .noSession | .copying _ => [0xFF, 0, 0] := by
  have owned : ∀ o : SessionOwner, ownerBytes (some o) = (if o.port = .a then 0 else 1) :: bytes16 o.token := by
    rintro ⟨port, token⟩; cases port <;> rfl
  cases x with
  | noSession | copying => rfl
  | opened o | verifying o | armed o => exact owned o

/-- The outcome fields of the status record (R208, R214). -/
theorem outcomeBytes_asGiven (x : CommitOutcome) : x.bytes = match x with
    | .never => [0, 0, 0xFF, 0xFF, 0xFF]
    | .done => [1, 0, 0xFF, 0xFF, 0xFF]
    | .failed ⟨reason, none⟩ => [2, reason.code, 0xFF, 0xFF, 0xFF]
    | .failed ⟨reason, some e⟩ => [2, reason.code, e.table.code] ++ bytes16 (BitVec.ofNat 16 e.index) := by
  obtain _ | _ | ⟨reason, _ | e⟩ := x <;> rfl

/-- The owner takes three bytes and the outcome five (R208). -/
theorem ownerBytes_three (o : Option SessionOwner) : ∃ x y z, ownerBytes o = [x, y, z] := by
  cases o <;> exact ⟨_, _, _, rfl⟩

/-- See `ownerBytes_three`. -/
theorem outcomeBytes_five (x : CommitOutcome) : ∃ a b c d e, x.bytes = [a, b, c, d, e] := by
  obtain _ | _ | ⟨_, _ | _⟩ := x <;> exact ⟨_, _, _, _, _, rfl⟩

/-- Where each field of the status record begins (R208). -/
theorem statusRecord_fields (s : State) :
    s.statusRecord.length = 29 ∧
      s.statusRecord.take 10 = [s.ports.a.state.code, s.ports.b.state.code, BitVec.ofNat 8 s.ports.a.acquired,
        BitVec.ofNat 8 s.ports.b.acquired, s.ports.a.lastSequence, s.ports.b.lastSequence,
        ErrorKind.code s.rx.a.lastError, ErrorKind.code s.rx.b.lastError, ErrorKind.code s.rx.d.lastError,
        s.nextSequence] ∧
      (s.statusRecord.drop 10).take 4 =
        bytes16 (BitVec.ofNat 16 s.missed) ++ bytes16 (BitVec.ofNat 16 s.fallbackCount) ∧
      (s.statusRecord.drop 14).take 1 = [s.session.code] ∧
      (s.statusRecord.drop 15).take 3 = ownerBytes s.session.owner ∧
      (s.statusRecord.drop 18).take 5 = s.outcome.bytes ∧
      s.statusRecord.drop 23 = bytes16 s.latched ++ bytes16 s.pendingNotices ++
        [boolByte s.pause, BitVec.ofNat 8 s.queue.length] := by
  obtain ⟨x, y, z, howner⟩ := ownerBytes_three s.session.owner
  obtain ⟨a, b, c, d, e, houtcome⟩ := outcomeBytes_five s.outcome
  unfold State.statusRecord
  rw [howner, houtcome]
  exact ⟨rfl, rfl, rfl, rfl, rfl, rfl, rfl⟩

/-- The receiver of the request itself shows the last error kind that it had before (R12, R208). -/
theorem settle_statusRecord (r : Receiver) (s : State) : (settle r s).statusRecord = s.statusRecord := by
  cases r <;> rfl

theorem fallbackCount_asGiven (s : State) : s.fallbackCount = s.targets.toList.countP (·.kind = .scene) :=
  congrArg (fun p => s.targets.toList.countP p) (funext fun x => Bool.beq_eq_decide_eq x.kind .scene)

/-- The identity record (R142, R207). -/
theorem identityRecord_asGiven (s : State) : s.identityRecord =
    [0x1D, 0x4A, 0x03, 0x84, 0x01, s.node, if s.active = .bank0 then 0 else 1] ++ bytes32 s.checksum := by
  unfold State.identityRecord
  cases s.active <;> rfl

/-- Settles O36: the codes by their tables, the two records field by field, and the answer of a read command. -/
theorem identityAndStatusAreRead : Obligations.IdentityAndStatusAreRead := by
  refine ⟨fun x => by cases x <;> rfl, fun x => ?_, fun x => by cases x <;> rfl, tables_asGiven,
    fun h extra s hres => ⟨fun he => ?_, fun he => ?_⟩⟩
  · obtain _ | x := x
    · rfl
    · cases x <;> rfl
  · rw [← identityRecord_asGiven s]
    exact executed_read hres he rfl
  · obtain ⟨t, hexec, hsettled, honly, hanswered⟩ :=
      executed_read (carry := carryReadStatus) hres he
        (congrArg (readAnswer · (settle (rxOf h.port) s)) (settle_statusRecord (rxOf h.port) s))
    obtain ⟨hlength, hports, hcounts, hsession, howner, houtcome, hrest⟩ := statusRecord_fields s
    rw [Session.code_asGiven] at hsession
    rw [ownerBytes_asGiven] at howner
    rw [outcomeBytes_asGiven] at houtcome
    rw [fallbackCount_asGiven] at hcounts
    exact ⟨t, s.statusRecord, hexec, hsettled, honly, hanswered, hlength, hports, hcounts, hsession, howner, houtcome,
      hrest⟩

end Sys2Proof.Machine
end

section
/-! The node address (O6). -/

namespace Sys2Proof.Machine

theorem nodeOfStraps_toNat (straps : BitVec 6) :
    (nodeOfStraps straps).toNat = if straps.toNat = 0 then 63 else straps.toNat := by
  unfold nodeOfStraps
  by_cases h : straps = 0
  · rw [if_pos h, h]; rfl
  · have hne : straps.toNat ≠ 0 := fun e => h (BitVec.eq_of_toNat_eq e)
    rw [if_neg h, if_neg hne, BitVec.toNat_setWidth]
    omega

/-- The release of RESET reads the straps, and what PAUSED latches there leaves the node address (R127). -/
theorem releaseReset_node (straps : BitVec 6) (a b d : Bool) (s : State) :
    (releaseReset straps a b d s).node = nodeOfStraps straps := by
  rw [releaseReset_eq]; split
  · exact (latch_noticed _ _).node
  · rfl

theorem execPauseAssert_node {s t : State} (h : execPauseAssert s = .next t) : t.node = s.node := by
  unfold execPauseAssert at h
  repeat' split at h
  all_goals
    injection h with h
    subst h
  · rfl
  · rfl
  · exact (latch_noticed _ _).node

/-- No command but a release of RESET changes the node address (R127). -/
theorem exec_node_unread {c : Instr} {s t : State} (hrelease : ∀ x a b d, c ≠ .resetRelease x a b d)
    (h : exec c s = .next t) : t.node = s.node := by
  by_cases hhard : c = .hardReset
  · subst hhard; obtain rfl : heldInReset s = t := by injection h
    rfl
  by_cases hassert : c = .pauseAssert
  · subst hassert; exact execPauseAssert_node h
  by_cases hpause : c = .pauseRelease
  · subst hpause; obtain rfl : { s with pause := false } = t := by injection h
    rfl
  have hfixed := exec_fixed hhard hrelease hassert hpause h
  simp only [Fixed, Prod.mk.injEq] at hfixed
  obtain ⟨-, hnode, -⟩ := hfixed
  exact hnode

/-- Settles O6: the release reads the straps, and of the other commands none reaches the node address. -/
theorem nodeAddressIsReadAtRelease : Obligations.NodeAddressIsReadAtRelease := by
  refine ⟨fun straps a b d s hs => ⟨_, if_pos hs, ?_⟩, fun c s t h hunread => ?_⟩
  · rw [releaseReset_node, nodeOfStraps_toNat]
  · by_cases hrelease : ∀ x a b d, c ≠ .resetRelease x a b d
    · exact exec_node_unread hrelease h
    · have hs := hunread.resolve_left hrelease
      simp only [not_forall, not_not] at hrelease
      obtain ⟨x, a, b, d, rfl⟩ := hrelease
      obtain rfl : s = t := by
        have hexec : exec (.resetRelease x a b d) s = .next s := if_neg (by simp [hs])
        rw [hexec] at h
        injection h
      rfl

end Sys2Proof.Machine
end

section
/-! The program set and its sessions: every step keeps the program in force verified (O56). -/

namespace Sys2Proof.Machine

/-! ## Operations that leave the program set alone -/

/-- The states agree on the banks, the program in force and the session (R150, R155, R171). -/
def SameProgramSet (s t : State) : Prop :=
  (t.banks, t.active, t.checksum, t.session) = (s.banks, s.active, s.checksum, s.session)

theorem SameProgramSet.refl (s : State) : SameProgramSet s s := rfl

theorem SameProgramSet.trans {s t u : State} (h : SameProgramSet s t) (k : SameProgramSet t u) : SameProgramSet s u :=
  Eq.trans k h

/-- An operation on a state that differs in nothing of the program set. -/
theorem SameProgramSet.after {s t u : State} (k : SameProgramSet t u) (h : SameProgramSet s t) : SameProgramSet s u :=
  h.trans k

theorem Linked.sameProgramSet {s t : State} (h : Linked s t) : SameProgramSet s t := by unfold Linked at h; rw [h]; rfl

theorem Noticed.sameProgramSet {s t : State} (h : Noticed s t) : SameProgramSet s t := h.linked.sameProgramSet

theorem latch_sameProgramSet (k : Condition) (s : State) : SameProgramSet s (latch k s) :=
  (latch_noticed k s).sameProgramSet

theorem resolve_sameProgramSet (sel : Fin Config.channels → Bool) (s : State) : SameProgramSet s (resolve sel s) :=
  (resolve_noticed sel s).sameProgramSet.after rfl

theorem receiveErrorOp_sameProgramSet (r : Receiver) (e : ErrorKind) (s : State) :
    SameProgramSet s (receiveErrorOp r e s) := (receiveErrorOp_rest r e s).sameProgramSet.after rfl

theorem errorAtSample_sameProgramSet (r : Receiver) (e : DetectedError) (s : State) :
    SameProgramSet s (errorAtSample r e s) := (receiveErrorOp_sameProgramSet _ _ _).after rfl

theorem acceptFrame_sameProgramSet (p : Port) (f : LevelFrame) (s : State) : SameProgramSet s (acceptFrame p f s) := by
  have good : ∀ s, SameProgramSet s (goodFrame p s) := by
    intro s; unfold goodFrame; dsimp only; split
    · exact (latch_sameProgramSet _ (s.setPort p _)).after rfl
    · rfl
  have moved : ∀ g s, SameProgramSet s (moveOwners p g s) := fun _ _ => rfl
  have written : ∀ u s, SameProgramSet s (goodFrame p (s.setPort p u)) := fun u s => (good (s.setPort p u)).after rfl
  exact (written _ s).trans ((resolve_sameProgramSet _ _).after (moved _ _))

theorem onLevelA_sameProgramSet (f : LevelFrame) (s : State) : SameProgramSet s (onLevelA f s) := by
  unfold onLevelA levelAtA
  repeat' split
  · exact errorAtSample_sameProgramSet _ _ s
  · exact (acceptFrame_sameProgramSet _ _ _).after rfl
  · exact (latch_sameProgramSet _ _).after rfl
  · exact (forwardPath_linked _ _).sameProgramSet.after rfl

theorem onLevelB_sameProgramSet (f : LevelFrame) (s : State) : SameProgramSet s (onLevelB f s) := by
  unfold onLevelB levelAtB
  repeat' split
  · exact errorAtSample_sameProgramSet _ _ s
  · exact (acceptFrame_sameProgramSet _ _ _).after rfl
  · rfl

theorem lossExpiryOp_sameProgramSet (p : Port) (s : State) : SameProgramSet s (lossExpiryOp p s) := by
  have report : ∀ s, SameProgramSet s (stateReport p s) := fun s => resolve_sameProgramSet _ s
  have event : ∀ n s, SameProgramSet s (lossEvent p n s) := by
    intro n s
    unfold lossEvent
    dsimp only
    split
    · exact (report _).after rfl
    · split
      · exact (((latch_sameProgramSet _ _).trans (latch_sameProgramSet _ _)).trans (report _)).after rfl
      · exact ((latch_sameProgramSet _ _).trans (report _)).after rfl
    all_goals rfl
  unfold lossExpiryOp; split
  · rfl
  · exact (event _ (s.reach _)).after rfl

theorem holdExpiryOp_sameProgramSet (p : Port) (s : State) : SameProgramSet s (holdExpiryOp p s) := by
  have report : ∀ s, SameProgramSet s (stateReport p s) := fun s => resolve_sameProgramSet _ s
  have event : ∀ s, SameProgramSet s (holdEvent p s) := by
    intro s
    unfold holdEvent
    dsimp only
    split
    · exact ((latch_sameProgramSet _ _).trans (report _)).after rfl
    all_goals rfl
  unfold holdExpiryOp; split
  · rfl
  · exact (event (s.reach _)).after rfl

theorem fadeTickOp_sameProgramSet (s : State) : SameProgramSet s (fadeTickOp s) := by
  unfold fadeTickOp; dsimp only; repeat' split
  all_goals rfl

theorem transmitCompleteOp_sameProgramSet (x : Transmitter) (s : State) :
    SameProgramSet s (transmitCompleteOp x s) := by
  have entry : ∀ p s, SameProgramSet s (entryCompleted p s) := by
    intro p s; unfold entryCompleted; split
    · exact (drainPending_noticed _).sameProgramSet.after rfl
    · rfl
  have output : ∀ s, SameProgramSet s (outputCompleted s) := by
    intro s; unfold outputCompleted; split <;> rfl
  unfold transmitCompleteOp
  split
  · cases x
    · exact (output _).after rfl
    · exact (entry .a _).after rfl
    · exact (entry .b _).after rfl
  all_goals rfl

theorem gapEndOp_sameProgramSet (x : Transmitter) (s : State) : SameProgramSet s (gapEndOp x s) := by
  unfold gapEndOp; split
  · exact (serve_linked _ _).sameProgramSet.after rfl
  all_goals rfl

theorem interFrameIdleOp_sameProgramSet (r : Receiver) (s : State) : SameProgramSet s (interFrameIdleOp r s) := by
  unfold interFrameIdleOp; dsimp only; split <;> rfl

theorem truncatedOp_sameProgramSet (r : Receiver) (s : State) : SameProgramSet s (truncatedOp r s) := by
  unfold truncatedOp; dsimp only; split
  · exact (receiveErrorOp_sameProgramSet _ _ _).after rfl
  · rfl

theorem releaseReset_sameProgramSet (straps : BitVec 6) (a b d : Bool) (s : State) :
    SameProgramSet s (releaseReset straps a b d s) := by
  rw [releaseReset_eq]; split
  · exact (latch_sameProgramSet _ _).after rfl
  · rfl

theorem execPauseAssert_sameProgramSet {s t : State} (h : execPauseAssert s = .next t) : SameProgramSet s t := by
  unfold execPauseAssert at h
  repeat' split at h
  all_goals
    injection h with h
    subst h
  · rfl
  · rfl
  · exact latch_sameProgramSet .paused { s with pause := true }

/-! ## Operations on the program set -/

/-- What keeps the program in force verified. -/
structure KeepsProgram (s t : State) : Prop where
  sound : s.ProgramSound → t.ProgramSound

theorem KeepsProgram.refl (s : State) : KeepsProgram s s := ⟨id⟩

theorem KeepsProgram.trans {s t u : State} (h : KeepsProgram s t) (k : KeepsProgram t u) : KeepsProgram s u :=
  ⟨k.sound ∘ h.sound⟩

theorem SameProgramSet.keeps {s t : State} (h : SameProgramSet s t) : KeepsProgram s t := by
  simp only [SameProgramSet, Prod.mk.injEq] at h
  obtain ⟨hbanks, hactive, hchecksum, hsession⟩ := h
  constructor
  unfold State.ProgramSound State.activeBank State.shadowBank
  rw [hbanks, hactive, hchecksum, hsession]
  exact id

/-- An operation on a state that differs in nothing of the program set. -/
theorem KeepsProgram.after {s t u : State} (k : KeepsProgram t u) (h : SameProgramSet s t) : KeepsProgram s u :=
  h.keeps.trans k

theorem KeepsProgram.latch {k : Condition} {s t : State} (h : KeepsProgram s t) : KeepsProgram s (latch k t) :=
  h.trans (latch_sameProgramSet k t).keeps

/-- Only in NONE and in ARMED is anything asked of the shadow (R165, R170, R174). -/
theorem KeepsProgram.of_session {s t : State} (h : SameProgram s t) (hnone : t.session ≠ .noSession)
    (harmed : ∀ o k, t.session ≠ .armed o k) : KeepsProgram s t := by
  obtain ⟨-, hbank, hchecksum⟩ := h
  constructor
  rintro ⟨hverified, -, -⟩
  exact ⟨by rw [hbank, hchecksum]; exact hverified, fun e => absurd e hnone, fun o k e => absurd e (harmed o k)⟩

theorem sessionExpiryOp_keepsProgram (s : State) : KeepsProgram s (sessionExpiryOp s) := by
  unfold sessionExpiryOp; split
  · exact .latch (.of_session ⟨rfl, rfl, rfl⟩ nofun nofun)
  all_goals exact .refl s

/-- A session is ARMED only with a shadow that has passed (R165, R170). -/
theorem verificationCompleteOp_keepsProgram (s : State) : KeepsProgram s (verificationCompleteOp s) := by
  unfold verificationCompleteOp; split
  · dsimp only; split
    · rename_i owner committed since hverified
      constructor
      rintro ⟨hactive, -, -⟩
      refine ⟨hactive, nofun, fun o k e => ?_⟩
      injection e with _ e
      exact e ▸ hverified
    · exact .latch (.of_session ⟨rfl, rfl, rfl⟩ nofun nofun)
  all_goals exact .refl s

/-- With no session the shadow is the copy of the active bank (R174). -/
theorem copyCompleteOp_keepsProgram (s : State) : KeepsProgram s (copyCompleteOp s) := by
  unfold copyCompleteOp; split
  · constructor
    rintro ⟨hverified, -, -⟩
    have hactive : (s.banks.set s.active.other s.activeBank).get s.active = s.activeBank := Banks.get_set_other _ _ _
    exact ⟨(congrArg (verify · s.checksum) hactive).trans hverified,
      fun _ => (Banks.get_set_self _ _ _).trans hactive.symm, nofun⟩
  all_goals exact .refl s

/-- The shadow that becomes active is the one that was verified under the checksum that becomes the one held (R171). -/
theorem changeover_keepsProgram {o : SessionOwner} {k : Crc32} {s : State} (hs : s.session = .armed o k) :
    KeepsProgram s (changeover k s) := by
  obtain ⟨-, -, -, -, -, h⟩ := changeover_facts k s
  refine KeepsProgram.trans ?_ h.sameProgramSet.keeps
  constructor
  rintro ⟨-, -, harmed⟩
  exact ⟨harmed o k hs, nofun, nofun⟩

theorem refreshExpiryOp_keepsProgram (s : State) : KeepsProgram s (refreshExpiryOp s) := by
  have told : ∀ u, KeepsProgram u (toldOfSnapshot u) := by
    intro u; unfold toldOfSnapshot; split
    · rename_i hs; exact changeover_keepsProgram hs
    all_goals exact .refl u
  have taken : ∀ u, KeepsProgram u (takeSnapshot u) :=
    fun u => (told _).after ((serveD_linked _).sameProgramSet.after rfl)
  unfold refreshExpiryOp; split
  · exact .refl s
  · rename_i n _
    dsimp only
    split
    · exact KeepsProgram.trans (t := takeSnapshot (s.reach n)) ((taken _).after rfl) (SameProgramSet.keeps rfl)
    all_goals exact SameProgramSet.keeps rfl

/-! ## Requests -/

/-- Carrying a command out keeps the program in force verified. -/
def CarryKeepsProgram (carry : State → Carried) : Prop := ∀ s, KeepsProgram s (carry s).state

/-- Carrying a command out leaves the program set alone. -/
theorem CarryKeepsProgram.of_same {carry : State → Carried} (h : ∀ s, SameProgramSet s (carry s).state) :
    CarryKeepsProgram carry := fun s => (h s).keeps

theorem carryOpen_keepsProgram (o : SessionOwner) : CarryKeepsProgram (carryOpen o) := by
  intro s; unfold carryOpen; split
  · exact .refl s
  · split
    · exact .of_session ⟨rfl, rfl, rfl⟩ nofun nofun
    · split
      · exact .of_session ⟨rfl, rfl, rfl⟩ nofun nofun
      · exact .refl s
    all_goals exact .refl s

/-- A write to the tables leaves the bank in force (R160). -/
theorem writeEntries_sameProgram (t : TableName) (start : Nat) (entries : List (List Byte)) (s : State) :
    SameProgram s (writeEntries t start entries s) := by
  cases t
  case scenes => exact ⟨rfl, rfl, rfl⟩
  all_goals exact ⟨rfl, Banks.get_set_other _ _ _, rfl⟩

theorem carryWrite_keepsProgram (o : SessionOwner) (table : Byte) (index : BitVec 16) (count : Byte)
    (entries : List Byte) : CarryKeepsProgram (carryWrite o table index count entries) := by
  intro s; unfold carryWrite; repeat' split
  any_goals exact .refl s
  exact .of_session (writeEntries_sameProgram _ _ _ s) nofun nofun

theorem carryCommit_keepsProgram (o : SessionOwner) (expected : Crc32) :
    CarryKeepsProgram (carryCommit o expected) := by
  intro s; unfold carryCommit; split
  · exact .refl s
  · exact .of_session ⟨rfl, rfl, rfl⟩ nofun nofun

theorem carryAbort_keepsProgram (o : SessionOwner) : CarryKeepsProgram (carryAbort o) := by
  intro s; unfold carryAbort; repeat' split
  any_goals exact .refl s
  all_goals exact .of_session ⟨rfl, rfl, rfl⟩ nofun nofun

/-- A warm restart keeps NONE, and makes a bank copy of every other session (R180). -/
theorem carryRestart_keepsProgram : CarryKeepsProgram carryRestart := by
  intro s
  show KeepsProgram s (warmRestart s)
  rw [warmRestart_eq]
  by_cases hs : s.session = .noSession
  · refine SameProgramSet.keeps ?_
    simp only [SameProgramSet, if_pos hs]
    rw [hs]
  · refine .of_session ⟨rfl, rfl, rfl⟩ ?_ ?_ <;> simp [hs]

theorem addressed_keepsProgram {carry : State → Carried} (hc : CarryKeepsProgram carry) (h : RequestHeader)
    (code : Byte) (s : State) : KeepsProgram s (addressed h code carry s) := by
  unfold addressed
  repeat' split
  · exact (joinQueue_linked _ _ _).sameProgramSet.keeps.after rfl
  · exact (latch_sameProgramSet _ s).keeps
  · exact (hc s).trans (finishRequest_linked _ _ _).sameProgramSet.keeps
  · exact (latch_sameProgramSet _ s).keeps

theorem broadcast_keepsProgram {carry : State → Carried} (hc : CarryKeepsProgram carry) (form : BroadcastForm)
    (h : RequestHeader) (code : Byte) (args : List Byte) (s : State) :
    KeepsProgram s (broadcast form h code args carry s) := by
  have on : ∀ s, KeepsProgram s (handOn h code args s) := fun s => (handOn_linked h code args s).sameProgramSet.keeps
  have carried : ∀ s, KeepsProgram s (carryBroadcast carry s) :=
    fun s => (hc s).trans (latchAll_noticed _ _).sameProgramSet.keeps
  cases form with
  | ignored => exact on s
  | restarts => exact (carried s).trans (on _)
  | acts =>
    unfold broadcast broadcastActing State.choose
    dsimp only
    repeat' split
    · exact ((carried _).trans (on _)).after rfl
    · exact ((on _).trans (carried _)).after rfl
    · exact (carried s).trans (on _)

theorem onRequest_keepsProgram {carry : State → Carried} (hc : CarryKeepsProgram carry) (form : BroadcastForm)
    (h : RequestHeader) (code : Byte) (args : List Byte) (s : State) :
    KeepsProgram s (onRequest form h code args carry s) := by
  unfold onRequest takeRequest
  repeat' split
  · exact (errorAtSample_sameProgramSet _ _ s).keeps
  · exact (addressed_keepsProgram hc _ _ _).after rfl
  · exact (broadcast_keepsProgram hc _ _ _ _ _).after rfl
  · exact (handOn_linked _ _ _ _).sameProgramSet.keeps.after rfl

theorem guardReserved_keepsProgram {carry : State → Carried} (hc : CarryKeepsProgram carry) (h : RequestHeader) :
    CarryKeepsProgram (guardReserved h carry) := by
  intro s; unfold guardReserved; split
  · exact hc s
  · exact .refl s

/-! ## Frames and characters -/

/-- A completing frame, whatever command it is: the session commands and RESTART reach the program set (R13). -/
theorem runFrameCommand_keepsProgram (i : Instr) (s : State) : KeepsProgram s (runFrameCommand i s) := by
  have request : ∀ {carry : State → Carried}, CarryKeepsProgram carry → ∀ form h code args,
      KeepsProgram s (onRequest form h code args (guardReserved h carry) s) :=
    fun hc form h code args => onRequest_keepsProgram (guardReserved_keepsProgram hc h) form h code args s
  have read : ∀ {carry : State → Carried}, (∀ s, (carry s).state = s) → CarryKeepsProgram carry :=
    fun hc => .of_same fun s => by rw [hc s]; rfl
  have same : ∀ {carry : State → Carried}, (∀ s, SameProgramSet s (carry s).state) → ∀ form h code args,
      KeepsProgram s (onRequest form h code args (guardReserved h carry) s) := fun hc => request (.of_same hc)
  cases i <;> simp only [runFrameCommand]
  case levelFrameA f => exact (onLevelA_sameProgramSet f s).keeps
  case levelFrameB f => exact (onLevelB_sameProgramSet f s).keeps
  case forwardFrame f => exact (forwardPath_linked _ _).sameProgramSet.keeps.after rfl
  case relayFrame f => exact (relayPath_noticed _ _).sameProgramSet.keeps.after rfl
  case bFrameDiscarded f => exact SameProgramSet.keeps rfl
  case requestNotTaken h code args => exact (handOn_linked _ _ _ _).sameProgramSet.keeps.after rfl
  case badCommand h code args => exact onRequest_keepsProgram (read fun _ => rfl) _ _ _ _ _
  case identify h extra => exact request (read fun _ => rfl) _ _ _ _
  case readStatus h extra => exact request (read fun _ => rfl) _ _ _ _
  case readChannels h f c e => exact request (read (carryReadChannels_state f c)) _ _ _ _
  case readInputs h p f c e => exact request (read (carryReadInputs_state p f c)) _ _ _ _
  case readTable h b t i c e => exact request (read (carryReadTable_state b t i c)) _ _ _ _
  case openSession h t e => exact request (carryOpen_keepsProgram _) _ _ _ _
  case writeTable h t tb i c e => exact request (carryWrite_keepsProgram _ _ _ _ _) _ _ _ _
  case commit h t x e => exact request (carryCommit_keepsProgram _ _) _ _ _ _
  case abortSession h t e => exact request (carryAbort_keepsProgram _) _ _ _ _
  case force h f c l p e =>
    refine same (fun s => ?_) _ _ _ _
    unfold carryForce; repeat' split
    all_goals rfl
  case release h f c e =>
    refine same (fun s => ?_) _ _ _ _
    unfold carryRelease; split <;> rfl
  case saveScene h sc e =>
    refine same (fun s => ?_) _ _ _ _
    unfold carrySaveScene; split <;> rfl
  case ackConditions h k e => exact same (carry := carryAck k) (fun _ => rfl) _ _ _ _
  case restart h e => exact request carryRestart_keepsProgram _ _ _ _
  all_goals exact .refl s

theorem completeFrame_keepsProgram (r : Receiver) (f : Frame) (s : State) : KeepsProgram s (completeFrame r f s) := by
  unfold completeFrame; split
  · exact (errorAtSample_sameProgramSet _ _ s).keeps
  · exact runFrameCommand_keepsProgram _ s

/-- A character reaches the program set only as the last of a frame (R7). -/
theorem characterOp_keepsProgram (r : Receiver) (w : BitVec 10) (s : State) : KeepsProgram s (characterOp r w s) := by
  have good : ∀ b s, KeepsProgram s (goodCharacterOp r b s) := by
    intro b s; unfold goodCharacterOp receiveByte; dsimp only; repeat' split
    all_goals first
      | exact (errorAtSample_sameProgramSet _ _ s).keeps
      | exact completeFrame_keepsProgram _ _ s
      | exact SameProgramSet.keeps rfl
  have bad : ∀ s, SameProgramSet s (badCharacterOp r s) := by
    intro s; unfold badCharacterOp; dsimp only; split
    · rfl
    · rfl
    · exact errorAtSample_sameProgramSet _ _ s
  have truncate : ∀ n s, SameProgramSet s (truncateBefore r n s) := by
    intro n s; unfold truncateBefore; repeat' split
    · exact truncatedOp_sameProgramSet r s
    all_goals rfl
  have hunt : ∀ n s, SameProgramSet s (huntBefore r n s) := by
    intro n s; unfold huntBefore; repeat' split
    · exact interFrameIdleOp_sameProgramSet r s
    all_goals rfl
  have before : ∀ n m s, SameProgramSet s ((huntBefore r n (truncateBefore r n s)).reach m) :=
    fun n m s => ((truncate n s).trans (hunt n _)).trans rfl
  unfold characterOp takeCharacter
  dsimp only
  repeat' split
  · exact .refl s
  · exact .refl s
  · exact (good _ _).after (before _ _ s)
  · exact ((bad _).after (before _ _ s)).keeps

/-! ## The claim -/

/-- Every command keeps the program in force verified. -/
theorem exec_keepsProgram {c : Instr} {s t : State} (h : exec c s = .next t) : KeepsProgram s t := by
  have run : ∀ {f : State → State}, KeepsProgram s (f s) → whenRunning f s = .next t → KeepsProgram s t := by
    intro f hf hh
    obtain rfl | ⟨-, rfl⟩ := whenRunning_cases hh
    · exact .refl _
    · exact hf
  have same : ∀ {f : State → State}, SameProgramSet s (f s) → whenRunning f s = .next t → KeepsProgram s t :=
    fun hf => run hf.keeps
  have frame : ∀ i, whenRunning (runFrameCommand i) s = .next t → KeepsProgram s t :=
    fun i => run (runFrameCommand_keepsProgram i s)
  cases c <;> simp only [exec] at h
  case hardReset =>
    obtain rfl : heldInReset s = t := by injection h
    obtain ⟨-, -, -, -, -, hreset, -⟩ := resetIsSound
    exact ⟨fun _ => (SameProgramSet.keeps (s := State.reset) rfl).sound hreset⟩
  case resetRelease x a b d =>
    unfold execResetRelease at h
    split at h
    · obtain rfl : releaseReset x a b d s = t := by injection h
      exact (releaseReset_sameProgramSet x a b d s).keeps
    · obtain rfl : s = t := by injection h
      exact .refl s
  case pauseAssert => exact (execPauseAssert_sameProgramSet h).keeps
  case pauseRelease =>
    obtain rfl : { s with pause := false } = t := by injection h
    exact SameProgramSet.keeps rfl
  case fadeTick => exact same (fadeTickOp_sameProgramSet s) h
  case refreshExpiry => exact run (refreshExpiryOp_keepsProgram s) h
  case interFrameIdle r => exact same (interFrameIdleOp_sameProgramSet r s) h
  case truncated r => exact same (truncatedOp_sameProgramSet r s) h
  case receiveError r e =>
    refine same ?_ h; unfold receiveErrorEvent; split
    · rfl
    · exact errorAtSample_sameProgramSet _ _ _
  case lineReturnHigh r => refine same ?_ h; unfold lineReturnHighOp; dsimp only; split <;> rfl
  case characterReceived r x => exact run (characterOp_keepsProgram r x s) h
  case lossExpiry p => exact same (lossExpiryOp_sameProgramSet p s) h
  case holdExpiry p => exact same (holdExpiryOp_sameProgramSet p s) h
  case sessionExpiry => exact run (sessionExpiryOp_keepsProgram s) h
  case verificationComplete => exact run (verificationCompleteOp_keepsProgram s) h
  case copyComplete => exact run (copyCompleteOp_keepsProgram s) h
  case transmitComplete x => exact same (transmitCompleteOp_sameProgramSet x s) h
  case gapEnd x => exact same (gapEndOp_sameProgramSet x s) h
  case forwardFrame | relayFrame | bFrameDiscarded | requestNotTaken | badCommand =>
    exact run (completeFrame_keepsProgram _ _ s) h
  case levelFrameA f => exact frame (.levelFrameA f) h
  case levelFrameB f => exact frame (.levelFrameB f) h
  case identify h' e => exact frame (.identify h' e) h
  case readStatus h' e => exact frame (.readStatus h' e) h
  case readChannels h' f c e => exact frame (.readChannels h' f c e) h
  case readInputs h' p f c e => exact frame (.readInputs h' p f c e) h
  case readTable h' b t' i c e => exact frame (.readTable h' b t' i c e) h
  case openSession h' t' e => exact frame (.openSession h' t' e) h
  case writeTable h' t' tb i c e => exact frame (.writeTable h' t' tb i c e) h
  case commit h' t' x e => exact frame (.commit h' t' x e) h
  case abortSession h' t' e => exact frame (.abortSession h' t' e) h
  case force h' f c l p e => exact frame (.force h' f c l p e) h
  case release h' f c e => exact frame (.release h' f c e) h
  case saveScene h' sc e => exact frame (.saveScene h' sc e) h
  case ackConditions h' k e => exact frame (.ackConditions h' k e) h
  case restart h' e => exact frame (.restart h' e) h

theorem releaseReset_inReset (straps : BitVec 6) (a b d : Bool) (s : State) :
    (releaseReset straps a b d s).inReset = false := by
  rw [releaseReset_eq]; split
  · exact (latch_noticed _ _).inReset
  · rfl

theorem execPauseAssert_inReset {s t : State} (h : execPauseAssert s = .next t) : t.inReset = s.inReset := by
  unfold execPauseAssert at h
  repeat' split at h
  all_goals
    injection h with h
    subst h
  · rfl
  · rfl
  · exact (latch_noticed .paused { s with pause := true }).inReset

/-- What leaves RESET and the program set as they are keeps the default set under RESET. -/
theorem SameProgramSet.defaultsUnderReset {s t : State} (h : SameProgramSet s t) (hr : t.inReset = s.inReset)
    (hs : s.DefaultsUnderReset) : t.DefaultsUnderReset := by
  simp only [SameProgramSet, Prod.mk.injEq] at h
  obtain ⟨hbanks, hactive, -⟩ := h
  unfold State.DefaultsUnderReset
  rw [hbanks, hactive, hr]
  exact hs

/-- RESET is asserted by HARD_RESET alone, and under it no other command reaches the banks (R154, R179). -/
theorem exec_defaultsUnderReset {c : Instr} {s t : State} (hs : s.DefaultsUnderReset) (h : exec c s = .next t) :
    t.DefaultsUnderReset := by
  by_cases hhard : c = .hardReset
  · subst hhard
    obtain rfl : heldInReset s = t := by injection h
    exact fun _ => ⟨rfl, rfl⟩
  by_cases hrelease : ∃ x a b d, c = .resetRelease x a b d
  · obtain ⟨x, a, b, d, rfl⟩ := hrelease
    simp only [exec, execResetRelease] at h
    split at h
    · obtain rfl : releaseReset x a b d s = t := by injection h
      exact fun ht => absurd (releaseReset_inReset x a b d s) (by simp [ht])
    · obtain rfl : s = t := by injection h
      exact hs
  have hrelease : ∀ x a b d, c ≠ .resetRelease x a b d := fun x a b d e => hrelease ⟨x, a, b, d, e⟩
  by_cases hassert : c = .pauseAssert
  · subst hassert
    exact (execPauseAssert_sameProgramSet h).defaultsUnderReset (execPauseAssert_inReset h) hs
  by_cases hpause : c = .pauseRelease
  · subst hpause
    obtain rfl : { s with pause := false } = t := by injection h
    exact hs
  by_cases hr : s.inReset = true
  · obtain rfl : s = t := by rw [exec_underReset hr hhard hrelease hassert hpause] at h; injection h
    exact hs
  · have hfixed := exec_fixed hhard hrelease hassert hpause h
    simp only [Fixed, Prod.mk.injEq] at hfixed
    obtain ⟨hin, -⟩ := hfixed
    exact fun ht => absurd (hin.symm.trans ht) hr

/-- Settles O56: of all operations few reach the banks or the session, and what each leaves in force has been verified;
and under RESET only HARD_RESET reaches the banks. -/
theorem runningProgramIsVerified : Obligations.RunningProgramIsVerified :=
  ⟨keptByEveryStep_of_exec (fun _ _ _ _ h => h) fun _ _ _ h he => (exec_keepsProgram he).sound h,
    keptByEveryStep_of_exec (fun _ _ _ _ h => h) fun _ _ _ => exec_defaultsUnderReset⟩

end Sys2Proof.Machine
end

section
/-! The session commands and the session's own events (O39, O42, O43, O45). -/

namespace Sys2Proof.Machine

/-! ## Answered session commands -/

/-- A request that is executed and changes the banks, the session and the write pointer only (R134). -/
theorem executed_loading {h : RequestHeader} {code : Byte} {args : List Byte} {carry : State → Carried} {s : State}
    {b : Banks} {x : Session} {p : WritePointer} {r : Result} {data : List Byte} (hres : h.reserved = 0)
    (he : Executes h code args s)
    (hc : carry (settle (rxOf h.port) s) =
      ⟨{ settle (rxOf h.port) s with banks := b, session := x, pointer := p }, r, data, []⟩) :
    ∃ t, whenRunning (onRequest .ignored h code args (guardReserved h carry)) s = .next t ∧ Settled (rxOf h.port) s t ∧
      OnlyAnswer { s with banks := b, session := x, pointer := p } t ∧ Answered h code r data [] s t := by
  have hguarded : guardReserved h carry (settle (rxOf h.port) s) = _ := (if_pos hres).trans hc
  obtain ⟨hsettled, honly, hanswered⟩ := executed_plain (form := .ignored) he hguarded rfl rfl rfl rfl rfl
  exact ⟨_, whenRunning_next he.1, hsettled, honly.besideRx rfl, hanswered⟩

/-- A session command that is executed, with the session and the write pointer that it leaves (R134). -/
theorem executed_session {h : RequestHeader} {code : Byte} {args : List Byte} {carry : State → Carried} {s : State}
    {x : Session} {p : WritePointer} {r : Result} (hres : h.reserved = 0) (he : Executes h code args s)
    (hc : carry (settle (rxOf h.port) s) = ⟨{ settle (rxOf h.port) s with session := x, pointer := p }, r, [], []⟩) :
    ∃ t, whenRunning (onRequest .ignored h code args (guardReserved h carry)) s = .next t ∧ Settled (rxOf h.port) s t ∧
      OnlyAnswer { s with session := t.session, pointer := t.pointer } t ∧ Answered h code r [] [] s t ∧
      t.session = x ∧ t.pointer = p := by
  obtain ⟨t, hexec, hsettled, honly, hanswered⟩ := executed_loading (b := s.banks) hres he hc
  obtain ⟨-, -, -, -, hsession, hpointer, -⟩ := honly.part
  exact ⟨t, hexec, hsettled, by rw [hsession, hpointer]; exact honly, hanswered, hsession, hpointer⟩

/-- A session command that leaves the write pointer (R134). -/
theorem executed_sessionOnly {h : RequestHeader} {code : Byte} {args : List Byte} {carry : State → Carried} {s : State}
    {x : Session} {r : Result} (hres : h.reserved = 0) (he : Executes h code args s)
    (hc : carry (settle (rxOf h.port) s) = ⟨{ settle (rxOf h.port) s with session := x }, r, [], []⟩) :
    ∃ t, whenRunning (onRequest .ignored h code args (guardReserved h carry)) s = .next t ∧ Settled (rxOf h.port) s t ∧
      OnlyAnswer { s with session := t.session } t ∧ Answered h code r [] [] s t ∧ t.session = x := by
  obtain ⟨t, hexec, hsettled, honly, hanswered, hsession, hpointer⟩ := executed_session (p := s.pointer) hres he hc
  rw [hpointer] at honly
  exact ⟨t, hexec, hsettled, honly, hanswered, hsession⟩

/-- Who is refused, and how, in each state of the session (section 8.4). -/
theorem sessionRefusal_asGiven (o : SessionOwner) (s : State) : sessionRefusal o s = match s.session with
    | .noSession => some .noSession
    | .opened owner _ => if owner = o then none else some .locked
    | .verifying owner _ _ | .armed owner _ => some (if owner = o then .busy else .locked)
    | .copying _ => some .busy := by
  unfold sessionRefusal
  cases s.session with
  | noSession | copying => rfl
  | opened owner => exact if_congr eq_comm rfl rfl
  | verifying owner | armed owner => exact (if_congr eq_comm rfl rfl).trans (apply_ite some _ _ _).symm

/-! ## OPEN_SESSION -/

/-- With no session, OPEN_SESSION opens one (R156). -/
theorem carryOpen_opens {o : SessionOwner} {s : State} (ho : o.token ≠ 0) (hs : s.session = .noSession) :
    carryOpen o s = ⟨{ s with session := .opened o s.sessionExpiry, pointer := ⟨.config, 0⟩ }, .ok, [], []⟩ := by
  rw [carryOpen, if_neg ho, hs]

/-- In OPEN, OPEN_SESSION from the owner restarts the inactivity timer (R156, R161). -/
theorem carryOpen_restarts {o : SessionOwner} {n : Nat} {s : State} (ho : o.token ≠ 0) (hs : s.session = .opened o n) :
    carryOpen o s = ⟨{ s with session := .opened o s.sessionExpiry }, .ok, [], []⟩ := by
  rw [carryOpen, if_neg ho, hs]
  exact if_pos rfl

/-- With a session, OPEN_SESSION is refused as the other session commands are (R156). -/
theorem carryOpen_refused {o : SessionOwner} {r : Result} {s : State} (ho : o.token ≠ 0)
    (hr : sessionRefusal o s = some r) (hs : s.session ≠ .noSession) : carryOpen o s = ⟨s, r, [], []⟩ := by
  unfold sessionRefusal at hr
  rw [carryOpen, if_neg ho]
  cases hsession : s.session <;> rw [hsession] at hr <;> dsimp only at hr ⊢
  case noSession => exact absurd hsession hs
  case opened owner n =>
    by_cases howner : o = owner
    · rw [if_pos howner] at hr; cases hr
    · rw [if_neg howner] at hr ⊢; cases hr; rfl
  case verifying owner _ _ | armed owner _ =>
    by_cases howner : o = owner
    · rw [if_pos howner] at hr ⊢; cases hr; rfl
    · rw [if_neg howner] at hr ⊢; cases hr; rfl
  case copying => cases hr; rfl

/-- Settles O39: what OPEN_SESSION carries out in each state of the session, answered. -/
theorem sessionsAreOpened : Obligations.SessionsAreOpened := by
  rintro h token extra s o hres he rfl
  have opens : ∀ {x p r}, carryOpen ⟨h.port, token⟩ (settle (rxOf h.port) s) =
      ⟨{ settle (rxOf h.port) s with session := x, pointer := p }, r, [], []⟩ →
      ∃ t, exec (.openSession h token extra) s = .next t ∧ Settled (rxOf h.port) s t ∧
        OnlyAnswer { s with session := t.session, pointer := t.pointer } t ∧ Answered h 0x10 r [] [] s t ∧
        t.session = x ∧ t.pointer = p := executed_session hres he
  by_cases ht : token = 0
  · obtain ⟨t, hexec, hsettled, honly, hanswered, hsession, hpointer⟩ :=
      opens (x := s.session) (p := s.pointer) (if_pos ht)
    exact ⟨t, hexec, hsettled, honly, fun _ => ⟨hanswered, hsession, hpointer⟩, fun hne => absurd ht hne⟩
  have refuses : ∀ {r}, sessionRefusal ⟨h.port, token⟩ s = some r → s.session ≠ .noSession →
      carryOpen ⟨h.port, token⟩ (settle (rxOf h.port) s) =
        ⟨{ settle (rxOf h.port) s with session := s.session, pointer := s.pointer }, r, [], []⟩ :=
    fun hr hs => carryOpen_refused (s := settle (rxOf h.port) s) ht hr hs
  have hrefusal := sessionRefusal_asGiven ⟨h.port, token⟩ s
  cases hs : s.session with
  | noSession =>
    obtain ⟨t, hexec, hsettled, honly, hanswered, hsession, hpointer⟩ := opens (carryOpen_opens ht hs)
    exact ⟨t, hexec, hsettled, honly, fun e => absurd e ht, fun _ => ⟨hanswered, hpointer, hsession⟩⟩
  | opened owner n =>
    rw [hs] at hrefusal
    by_cases ho : owner = ⟨h.port, token⟩
    · subst ho
      obtain ⟨t, hexec, hsettled, honly, hanswered, hsession, hpointer⟩ :=
        opens (p := s.pointer) (carryOpen_restarts ht hs)
      exact ⟨t, hexec, hsettled, honly, fun e => absurd e ht,
        fun _ => ⟨hpointer, fun _ => ⟨hanswered, hsession⟩, fun hne => absurd rfl hne⟩⟩
    · obtain ⟨t, hexec, hsettled, honly, hanswered, hsession, hpointer⟩ :=
        opens (refuses (hrefusal.trans (if_neg ho)) (by simp [hs]))
      exact ⟨t, hexec, hsettled, honly, fun e => absurd e ht,
        fun _ => ⟨hpointer, fun e => absurd e ho, fun _ => ⟨hanswered, hsession.trans hs⟩⟩⟩
  | verifying owner | armed owner =>
    rw [hs] at hrefusal
    obtain ⟨t, hexec, hsettled, honly, hanswered, hsession, hpointer⟩ := opens (refuses hrefusal (by simp [hs]))
    exact ⟨t, hexec, hsettled, honly, fun e => absurd e ht, fun _ => ⟨hpointer, hsession.trans hs,
      fun ho => by rwa [if_pos ho] at hanswered, fun ho => by rwa [if_neg ho] at hanswered⟩⟩
  | copying n =>
    rw [hs] at hrefusal
    obtain ⟨t, hexec, hsettled, honly, hanswered, hsession, hpointer⟩ := opens (refuses hrefusal (by simp [hs]))
    exact ⟨t, hexec, hsettled, honly, fun e => absurd e ht, fun _ => ⟨hpointer, hsession.trans hs, hanswered⟩⟩

/-! ## COMMIT and ABORT_SESSION -/

/-- COMMIT from the owner in OPEN begins the verification (R163). -/
theorem carryCommit_accepted {o : SessionOwner} {n : Nat} {expected : Crc32} {s : State} (hs : s.session = .opened o n) :
    carryCommit o expected s = ⟨{ s with session := .verifying o expected s.now }, .accepted, [], []⟩ := by
  rw [carryCommit, sessionRefusal, hs]
  dsimp only
  rw [if_pos rfl]

/-- COMMIT is refused by the state of the session (R163). -/
theorem carryCommit_refused {o : SessionOwner} {expected : Crc32} {r : Result} {s : State}
    (hr : sessionRefusal o s = some r) : carryCommit o expected s = ⟨s, r, [], []⟩ := by
  rw [carryCommit, hr]
  rfl

/-- ABORT_SESSION from the owner in OPEN or VERIFYING starts a bank copy, and otherwise is refused (R175). -/
theorem carryAbort_asGiven (o : SessionOwner) (s : State) : carryAbort o s = match s.session with
    | .noSession => ⟨s, .noSession, [], []⟩
    | .copying _ => ⟨s, .busy, [], []⟩
    | .opened owner _ | .verifying owner _ _ =>
      if owner = o then ⟨{ s with session := .copying s.now }, .ok, [], []⟩ else ⟨s, .locked, [], []⟩
    | .armed owner _ => ⟨s, if owner = o then .tooLate else .locked, [], []⟩ := by
  unfold carryAbort
  cases s.session with
  | noSession | copying => rfl
  | opened owner | verifying owner => exact if_congr eq_comm rfl rfl
  | armed owner => exact congrArg (refuseWith · s) (if_congr eq_comm rfl rfl)

/-- A session command is executed and answered with a result and no data, and leaves the session so (R134). -/
def SessionAnswered (c : Instr) (h : RequestHeader) (code : Byte) (r : Result) (x : Session) (s : State) : Prop :=
  ∃ t, exec c s = .next t ∧ Settled (rxOf h.port) s t ∧ OnlyAnswer { s with session := t.session } t ∧
    Answered h code r [] [] s t ∧ t.session = x

/-- Settles O42: what each command carries out in each state of the session, answered. -/
theorem commitsAndAborts : Obligations.CommitsAndAborts := by
  constructor
  · rintro h token expected extra s o hres he rfl
    have answers : ∀ {r x}, carryCommit ⟨h.port, token⟩ expected (settle (rxOf h.port) s) =
        ⟨{ settle (rxOf h.port) s with session := x }, r, [], []⟩ →
        SessionAnswered (.commit h token expected extra) h 0x12 r x s := executed_sessionOnly hres he
    have refuses : ∀ {r}, sessionRefusal ⟨h.port, token⟩ s = some r →
        SessionAnswered (.commit h token expected extra) h 0x12 r s.session s :=
      fun hr => answers (carryCommit_refused (s := settle (rxOf h.port) s) hr)
    have hrefusal := sessionRefusal_asGiven ⟨h.port, token⟩ s
    cases hs : s.session <;> rw [hs] at hrefusal refuses
    case noSession | copying =>
      obtain ⟨t, hexec, hsettled, honly, hanswered, hsession⟩ := refuses hrefusal
      exact ⟨t, hexec, hsettled, honly, hanswered, hsession⟩
    case opened owner n =>
      by_cases ho : owner = ⟨h.port, token⟩
      · subst ho
        obtain ⟨t, hexec, hsettled, honly, hanswered⟩ := answers (carryCommit_accepted hs)
        exact ⟨t, hexec, hsettled, honly, fun _ => hanswered, fun hne => absurd rfl hne⟩
      · obtain ⟨t, hexec, hsettled, honly, hanswered⟩ := refuses (hrefusal.trans (if_neg ho))
        exact ⟨t, hexec, hsettled, honly, fun e => absurd e ho, fun _ => hanswered⟩
    case verifying owner _ _ | armed owner _ =>
      obtain ⟨t, hexec, hsettled, honly, hanswered, hsession⟩ := refuses hrefusal
      exact ⟨t, hexec, hsettled, honly, hsession, fun ho => by rwa [if_pos ho] at hanswered,
        fun ho => by rwa [if_neg ho] at hanswered⟩
  · rintro h token extra s o hres he rfl
    have answers : ∀ {r x}, carryAbort ⟨h.port, token⟩ (settle (rxOf h.port) s) =
        ⟨{ settle (rxOf h.port) s with session := x }, r, [], []⟩ →
        SessionAnswered (.abortSession h token extra) h 0x13 r x s := executed_sessionOnly hres he
    have hcarry := carryAbort_asGiven ⟨h.port, token⟩ (settle (rxOf h.port) s)
    rw [show (settle (rxOf h.port) s).session = s.session from rfl] at hcarry
    have refuses : ∀ {r}, carryAbort ⟨h.port, token⟩ (settle (rxOf h.port) s) = ⟨settle (rxOf h.port) s, r, [], []⟩ →
        SessionAnswered (.abortSession h token extra) h 0x13 r s.session s := answers
    cases hs : s.session <;> rw [hs] at hcarry refuses
    case noSession | copying =>
      obtain ⟨t, hexec, hsettled, honly, hanswered⟩ := refuses hcarry
      exact ⟨t, hexec, hsettled, honly, hanswered⟩
    case opened owner _ | verifying owner _ _ =>
      by_cases ho : owner = ⟨h.port, token⟩
      · obtain ⟨t, hexec, hsettled, honly, hanswered⟩ := answers (hcarry.trans (if_pos ho))
        exact ⟨t, hexec, hsettled, honly, fun _ => hanswered, fun hne => absurd ho hne⟩
      · obtain ⟨t, hexec, hsettled, honly, hanswered⟩ := refuses (hcarry.trans (if_neg ho))
        exact ⟨t, hexec, hsettled, honly, fun e => absurd e ho, fun _ => hanswered⟩
    case armed owner _ =>
      obtain ⟨t, hexec, hsettled, honly, hanswered, hsession⟩ := refuses hcarry
      exact ⟨t, hexec, hsettled, honly, hsession, fun ho => by rwa [if_pos ho] at hanswered,
        fun ho => by rwa [if_neg ho] at hanswered⟩

/-! ## The session's own events -/

/-- A latching on a state that has reached an instant, with another session and commit outcome (R183). -/
theorem latch_afterSession (k : Condition) {s u : State}
    (hu : u = { s with now := u.now, session := u.session, outcome := u.outcome }) :
    (latch k u).now = u.now ∧ (latch k u).session = u.session ∧ (latch k u).outcome = u.outcome ∧ (latch k u).rx = s.rx ∧
      Latches [k] s (latch k u) ∧ OnlyReceiversAndConditions u (latch k u) := by
  have hnoticed := latch_noticed k u
  refine ⟨hnoticed.now, hnoticed.session, hnoticed.outcome, hnoticed.rx.trans (by rw [hu]),
    (latch_latches k u).congr ?_ ?_ ?_ rfl, latch_only k u⟩ <;> rw [hu] <;> rfl

/-- Settles O43: each event is one change of the session, with the kind that it latches. -/
theorem sessionTimersRunOut : Obligations.SessionTimersRunOut := by
  refine ⟨fun o n s hr hs => ?_, fun o k n s hr hs hv => ?_, fun o k n s f hr hs hv => ?_⟩
  · have hexec : exec .sessionExpiry s = .next (latch .sessionExpired (startCopy (s.reach n))) := by
      refine (whenRunning_next hr).trans ?_
      unfold sessionExpiryOp
      rw [hs]
    obtain ⟨hnow, hsession, -, hrx, hlatches, honly⟩ :=
      latch_afterSession .sessionExpired (s := s) (u := startCopy (s.reach n)) rfl
    exact ⟨_, hexec, hnow, hsession.trans (congrArg _ hnow.symm), hrx, hlatches, by rw [hnow, hsession]; exact honly⟩
  · refine (whenRunning_next hr).trans ?_
    unfold verificationCompleteOp
    rw [hs]
    dsimp only
    rw [show (s.reach (n + 1)).shadowBank = s.shadowBank from rfl, hv]
    rfl
  · set u : State := { s.reach (n + 1) with session := .opened o (s.reach (n + 1)).sessionExpiry, outcome := .failed f }
    have hexec : exec .verificationComplete s = .next (latch .commitFailed u) := by
      refine (whenRunning_next hr).trans ?_
      unfold verificationCompleteOp
      rw [hs]
      dsimp only
      rw [show (s.reach (n + 1)).shadowBank = s.shadowBank from rfl, hv]
    obtain ⟨hnow, hsession, houtcome, hrx, hlatches, honly⟩ := latch_afterSession .commitFailed (s := s) (u := u) rfl
    refine ⟨_, hexec, hnow, houtcome, hrx, hsession.trans ?_, hlatches, by rw [hnow, hsession, houtcome]; exact honly⟩
    rw [hnow]; rfl

/-- Settles O45: the copy leaves no session, and so OPEN_SESSION opens one. -/
theorem copyRestoresTheShadow : Obligations.CopyRestoresTheShadow := by
  intro n s hr hs
  set t : State := { s.reach (n + 1) with banks := s.banks.set s.active.other s.activeBank, session := .noSession }
  have hexec : exec .copyComplete s = .next t := by
    refine (whenRunning_next hr).trans ?_
    unfold copyCompleteOp
    rw [hs]
  refine ⟨t, hexec, Banks.get_set_self _ _ _, Banks.get_set_other _ _ _, rfl, rfl, fun h token hres ht he => ?_⟩
  obtain ⟨u, hopened, -, -, hanswered, hsession, -⟩ :=
    executed_session (args := bytes16 token ++ []) (carry := carryOpen ⟨h.port, token⟩) hres he (carryOpen_opens ht rfl)
  exact ⟨u, hopened, hanswered, _, hsession⟩

end Sys2Proof.Machine
end

section
/-! The layouts of the table entries and of a bank's image, and READ_TABLE (O38). -/

namespace Sys2Proof.Machine

/-! ## Pieces of a list of bytes -/

/-- A field within the first of two pieces. -/
theorem fieldAt_append_left {x y : List Byte} {offset size : Nat} (h : offset + size ≤ x.length) :
    fieldAt (x ++ y) offset size = fieldAt x offset size := by
  rw [fieldAt, fieldAt, List.drop_append_of_le_length (by omega), List.take_append_of_le_length (by
    rw [List.length_drop]; omega)]

/-- A field within the second of two pieces. -/
theorem fieldAt_append_right {x : List Byte} {n : Nat} (h : x.length = n) (y : List Byte) (offset size : Nat) :
    fieldAt (x ++ y) (n + offset) size = fieldAt y offset size := by
  rw [fieldAt, fieldAt, ← h, List.drop_append, List.drop_of_length_le (by omega), Nat.add_sub_cancel_left,
    List.nil_append]

/-- A piece alone. -/
theorem fieldAt_whole {x : List Byte} {size : Nat} (h : x.length = size) : fieldAt x 0 size = x := by
  rw [fieldAt, List.drop_zero, ← h, List.take_length]

theorem length_flatMap_of_size {α β : Type} {f : α → List β} {size : Nat} (hf : ∀ a, (f a).length = size) (l : List α) :
    (l.flatMap f).length = size * l.length := by
  induction l with
  | nil => rfl
  | cons a l ih => rw [List.flatMap_cons, List.length_append, hf, ih, List.length_cons, Nat.mul_succ, Nat.add_comm]

/-- Pieces of one size, one after another: each begins at its number times the size. -/
theorem fieldAt_flatMap {α : Type} {f : α → List Byte} {size : Nat} (hf : ∀ a, (f a).length = size) {l : List α}
    {n : Nat} {a : α} (h : l[n]? = some a) : fieldAt (l.flatMap f) (size * n) size = f a := by
  induction l generalizing n with
  | nil => cases h
  | cons b l ih =>
    rw [List.flatMap_cons]
    cases n with
    | zero =>
      obtain rfl : b = a := by simpa using h
      rw [Nat.mul_zero, fieldAt_append_left (by rw [hf]; omega), fieldAt_whole (hf b)]
    | succ n =>
      rw [Nat.mul_succ, Nat.add_comm, fieldAt_append_right (hf b), ih (by simpa using h)]

/-- An entry of lists of one length, one after another, by its number (R99). -/
theorem getElem?_flatMap_of_length {α β : Type} {f : α → List β} {size : Nat} (hsize : 0 < size)
    (hf : ∀ a, (f a).length = size) (l : List α) (i : Nat) :
    (l.flatMap f)[i]? = l[i / size]?.bind fun a => (f a)[i % size]? := by
  induction l generalizing i with
  | nil => rfl
  | cons a l ih =>
    rw [List.flatMap_cons]
    by_cases hi : i < size
    · rw [List.getElem?_append_left (by rw [hf]; exact hi), Nat.div_eq_of_lt hi, Nat.mod_eq_of_lt hi]
      rfl
    · obtain ⟨j, rfl⟩ : ∃ j, i = j + size := ⟨i - size, by omega⟩
      rw [List.getElem?_append_right (by rw [hf]; omega), hf, Nat.add_sub_cancel, ih, Nat.add_div_right _ hsize,
        Nat.add_mod_right, List.getElem?_cons_succ]

/-! ## Entries as given -/

/-- Two fields of one byte, the first in its high bits (R197). -/
theorem toNat_append_eq {m n : Nat} (x : BitVec m) (y : BitVec n) : (x ++ y).toNat = 2 ^ n * x.toNat + y.toNat := by
  rw [BitVec.toNat_append, Nat.shiftLeft_eq, Nat.mul_comm, ← Nat.two_pow_add_eq_or_of_lt y.isLt]

/-- The eight entries of the summary list (R210). -/
theorem summary_toList (v : Vector Byte 8) : v.toList = [v[0], v[1], v[2], v[3], v[4], v[5], v[6], v[7]] := by
  refine List.ext_getElem (by simp) fun i hi _ => ?_
  have hi : i < 8 := by simpa using hi
  interval_cases i <;> rfl

theorem config_asGiven (c : ConfigRecord) : ConfigAsGiven c := by
  unfold ConfigAsGiven ConfigRecord.bytes
  rw [summary_toList]
  refine ⟨rfl, rfl, rfl, rfl, rfl, rfl, rfl, fun i => ?_, rfl, rfl, rfl⟩
  fin_cases i <;> rfl

theorem map_asGiven (e : MapEntry) : MapAsGiven e := by
  refine ⟨rfl, ?_, ?_, rfl, rfl⟩
  · exact congrArg (fun n => [n]) (toNat_append_eq e.rule e.profile)
  · refine congrArg (fun n => [n]) ((toNat_append_eq (e.curve ++ e.reserved) e.hold).trans ?_)
    rw [toNat_append_eq]; omega

theorem profile_asGiven (r : ProfileRecord) : ProfileAsGiven r :=
  ⟨rfl, rfl, rfl, rfl, rfl, rfl, rfl, rfl, rfl, rfl, rfl⟩

theorem curve_asGiven (y : CurveRecord) : CurveAsGiven y := by
  refine ⟨?_, fun k => ?_⟩
  · rw [curveBytes, length_bytesOfHalves, Vector.length_toList]
  · exact fieldAt_flatMap length_bytes16 (by simp)

/-- The layouts of the table entries (R197, R210 to R213). -/
theorem layouts_asGiven : LayoutsAsGiven :=
  ⟨bytes_asGiven, config_asGiven, map_asGiven, profile_asGiven, curve_asGiven⟩

/-- The image of a bank: where each entry begins (R151). -/
theorem image_asGiven (b : Bank) : ImageAsGiven b := by
  set config := b.config.bytes
  set map := b.map.toList.flatMap MapEntry.bytes
  set profiles := b.profiles.toList.flatMap ProfileRecord.bytes
  set curves := b.curves.toList.flatMap curveBytes
  have himage : b.image = config ++ map ++ profiles ++ curves := rfl
  have hconfig : config.length = 32 := (config_asGiven b.config).1
  have hmap : (config ++ map).length = 2336 := by
    rw [List.length_append, hconfig, length_flatMap_of_size fun e => (map_asGiven e).1, Vector.length_toList,
      Config.channels]
  have hprofiles : (config ++ map ++ profiles).length = 2720 := by
    rw [List.length_append, hmap, length_flatMap_of_size fun e => (profile_asGiven e).1, Vector.length_toList]
  have hcurves : b.image.length = 2992 := by
    rw [himage, List.length_append, hprofiles, length_flatMap_of_size fun y => (curve_asGiven y).1, Vector.length_toList]
  unfold ImageAsGiven
  rw [himage] at hcurves ⊢
  refine ⟨hcurves, ?_, fun n => ?_, fun n => ?_, fun n => ?_⟩
  · rw [fieldAt_append_left (by omega), fieldAt_append_left (by omega), fieldAt_append_left (by omega),
      fieldAt_whole hconfig]
  · rw [fieldAt_append_left (by omega), fieldAt_append_left (by omega), fieldAt_append_right hconfig]
    exact fieldAt_flatMap (fun e => (map_asGiven e).1) (by simp)
  · rw [fieldAt_append_left (by omega), fieldAt_append_right hmap]
    exact fieldAt_flatMap (fun e => (profile_asGiven e).1) (by simp)
  · rw [fieldAt_append_right hprofiles]
    exact fieldAt_flatMap (fun y => (curve_asGiven y).1) (by simp)

/-! ## READ_TABLE -/

theorem TableName.ofCode_code (tbl : TableName) : TableName.ofCode tbl.code = some tbl := by cases tbl <;> rfl

theorem TableName.ofCode_eq_none {table : Byte} (h : 4 < table.toNat) : TableName.ofCode table = none := by
  have hne : ∀ c : Byte, c.toNat ≤ 4 → table ≠ c := fun c hc e => by subst e; omega
  simp only [TableName.ofCode, if_neg (hne 0 (by decide)), if_neg (hne 1 (by decide)), if_neg (hne 2 (by decide)),
    if_neg (hne 3 (by decide)), if_neg (hne 4 (by decide))]

theorem bankOfCode_eq_none {bank : Byte} (h : 1 < bank.toNat) : bankOfCode bank = none := by
  have hne : ∀ c : Byte, c.toNat ≤ 1 → bank ≠ c := fun c hc e => by subst e; omega
  rw [bankOfCode, if_neg (hne 0 (by decide)), if_neg (hne 1 (by decide))]

/-- The entries of a range, one by one (R176). -/
theorem records_of_readRange {α : Type} {n : Nat} (f : α → List Byte) (v : Vector α n) {first count : Nat}
    (h : first + count ≤ n) :
    ∃ records : List (List Byte), (Table.readRange first count v).flatMap f = records.flatten ∧
      records.length = count ∧ ∀ i, i < count → records[i]? = v[first + i]?.map f :=
  ⟨(Table.readRange first count v).map f, List.flatMap_def .., by rw [List.length_map, Table.length_readRange v h],
    fun i hi => by
      rw [List.getElem?_map, Table.getElem?_readRange v ⟨first + i, by omega⟩ rfl hi,
        Vector.getElem?_eq_getElem (by omega)]
      rfl⟩

/-- The entries of a banked table that a read names (R151, R176). -/
theorem areEntries_readBank {tbl : TableName} (htbl : tbl ≠ .scenes) (b : Bank)
    (scenes : Vector (Vector Level Config.channels) 4) {index count : Nat} (h : index + count ≤ tbl.entries) :
    AreEntries tbl b scenes index count (readBank tbl index count b) := by
  cases tbl with
  | config => 
    obtain ⟨records, hflatten, hlength, hentry⟩ := records_of_readRange ConfigRecord.bytes #v[b.config] h
    refine ⟨records, hflatten, hlength, fun i hi => (hentry i hi).trans ?_⟩
    have h : index + count ≤ 1 := h
    rw [show index + i = 0 by omega]
    rfl
  | map => exact records_of_readRange MapEntry.bytes b.map h
  | profiles => exact records_of_readRange ProfileRecord.bytes b.profiles h
  | curves => exact records_of_readRange curveBytes b.curves h
  | scenes => exact absurd rfl htbl

/-- The entries of the scene store that a read names, by scene × 384 + channel (R99, R176). -/
theorem areEntries_readScenes (b : Bank) (scenes : Vector (Vector Level Config.channels) 4) {index count : Nat}
    (h : index + count ≤ 1536) :
    AreEntries .scenes b scenes index count (readScenes index count scenes) := by
  have hlength : (scenes.toList.flatMap fun x => x.toList).length = 1536 := by
    rw [length_flatMap_of_size fun x => Vector.length_toList, Vector.length_toList,
      Config.channels]
  refine ⟨_, List.flatMap_def .., by rw [List.length_map, List.length_take, List.length_drop, hlength]; omega,
    fun i hi => ?_⟩
  rw [List.getElem?_map, List.getElem?_take_of_lt hi, List.getElem?_drop,
    getElem?_flatMap_of_length (size := 384) (by omega) (fun x => Vector.length_toList)]
  simp only [heldEntry, Option.map_bind, Vector.getElem?_toList, Function.comp_def]

/-- READ_TABLE with valid arguments goes by its bank and its table (R176). -/
theorem carryReadTable_ok {bank : Byte} {b : BankName} {tbl : TableName} {index : BitVec 16} {count : Byte} (s : State)
    (hb : bankOfCode bank = some b) (h1 : 1 ≤ count.toNat) (h2 : count.toNat ≤ tbl.perRequest)
    (h3 : index.toNat + count.toNat ≤ tbl.entries) :
    carryReadTable bank tbl.code index count s = readTableAnswer b tbl index count s := by
  rw [carryReadTable, hb, TableName.ofCode_code]
  exact if_neg (by omega)

/-- READ_TABLE with invalid arguments is refused (R176). -/
theorem carryReadTable_bad {bank table : Byte} {index : BitVec 16} {count : Byte} (s : State)
    (h : 1 < bank.toNat ∨ 4 < table.toNat ∨ count.toNat = 0 ∨ ∃ tbl : TableName, table = tbl.code ∧
      (tbl.perRequest < count.toNat ∨ tbl.entries < index.toNat + count.toNat)) :
    carryReadTable bank table index count s = ⟨s, .badArgument, [], []⟩ := by
  unfold carryReadTable
  split
  · rename_i b tbl hbank htable
    refine if_pos ?_
    obtain h | h | h | ⟨tbl', rfl, h⟩ := h
    · rw [bankOfCode_eq_none h] at hbank; cases hbank
    · rw [TableName.ofCode_eq_none h] at htable; cases htable
    · exact .inl h
    · obtain rfl : tbl' = tbl := by rw [TableName.ofCode_code] at htable; injection htable
      omega
  · rfl

/-- A banked table of the active bank is answered whatever the session (R176). -/
theorem readTableAnswer_active {tbl : TableName} (htbl : tbl ≠ .scenes) (index : BitVec 16) (count : Byte) (s : State) :
    readTableAnswer .active tbl index count s =
      ⟨s, .ok, [tbl.code] ++ bytes16 index ++ [count] ++ readBank tbl index.toNat count.toNat s.activeBank, []⟩ := by
  cases tbl with
  | scenes => exact absurd rfl htbl
  | config | map | profiles | curves => rfl

/-- A banked table of the shadow is answered outside COPYING (R176). -/
theorem readTableAnswer_shadow {tbl : TableName} (htbl : tbl ≠ .scenes) {index : BitVec 16} {count : Byte} {s : State}
    (hs : ∀ n, s.session ≠ .copying n) :
    readTableAnswer .shadow tbl index count s =
      ⟨s, .ok, [tbl.code] ++ bytes16 index ++ [count] ++ readBank tbl index.toNat count.toNat s.shadowBank, []⟩ := by
  cases hsession : s.session with
  | copying n => exact absurd hsession (hs n)
  | noSession | opened | verifying | armed =>
    cases tbl with
    | scenes => exact absurd rfl htbl
    | config | map | profiles | curves => simp only [readTableAnswer, hsession]; rfl

/-- A banked table of the shadow is BUSY in COPYING (R176). -/
theorem readTableAnswer_copying {tbl : TableName} (htbl : tbl ≠ .scenes) {index : BitVec 16} {count : Byte} {s : State}
    {n : Nat} (hs : s.session = .copying n) : readTableAnswer .shadow tbl index count s = ⟨s, .busy, [], []⟩ := by
  cases tbl with
  | scenes => exact absurd rfl htbl
  | config | map | profiles | curves => simp only [readTableAnswer, hs]; rfl

/-- Settles O38: the arguments, the bank and the session choose among four answers; the entries are those of the table. -/
theorem tablesAreRead : Obligations.TablesAreRead := by
  refine ⟨tables_asGiven, layouts_asGiven, fun h bank table index count extra s hres he => ⟨?_, fun hbad => ?_⟩⟩
  · rintro tbl rfl hbank h1 h2 h3
    have answers : ∀ {b r data}, bankOfCode bank = some b →
        readTableAnswer b tbl index count (settle (rxOf h.port) s) = ⟨settle (rxOf h.port) s, r, data, []⟩ →
        ∃ t, exec (.readTable h bank tbl.code index count extra) s = .next t ∧ Settled (rxOf h.port) s t ∧
          OnlyAnswer s t ∧ Answered h 0x05 r data [] s t :=
      fun hb hanswer => executed_read hres he ((carryReadTable_ok _ hb h1 h2 h3).trans hanswer)
    have hscenes : tbl = .scenes → AreEntries tbl s.activeBank s.scenes index.toNat count.toNat
        (readScenes index.toNat count.toNat s.scenes) := by
      rintro rfl; exact areEntries_readScenes _ _ h3
    have hbanked : tbl ≠ .scenes → ∀ b : Bank, AreEntries tbl b s.scenes index.toNat count.toNat
        (readBank tbl index.toNat count.toNat b) := fun htbl b => areEntries_readBank htbl b _ h3
    have hcases : bank = 0 ∨ bank = 1 := by
      obtain h0 | h0 : bank.toNat = 0 ∨ bank.toNat = 1 := by omega
      · exact .inl (BitVec.eq_of_toNat_eq h0)
      · exact .inr (BitVec.eq_of_toNat_eq h0)
    by_cases htbl : tbl = .scenes
    · subst htbl
      obtain ⟨b, hb⟩ : ∃ b, bankOfCode bank = some b := by obtain rfl | rfl := hcases <;> exact ⟨_, rfl⟩
      obtain ⟨t, hexec, hsettled, honly, hanswered⟩ := answers hb rfl
      exact ⟨t, hexec, hsettled, honly, fun _ e => absurd rfl e, fun _ => hanswered, fun _ e => absurd rfl e,
        fun _ e => absurd rfl e, hscenes, hbanked⟩
    · obtain rfl | rfl := hcases
      · obtain ⟨t, hexec, hsettled, honly, hanswered⟩ := answers rfl (readTableAnswer_active htbl _ _ _)
        exact ⟨t, hexec, hsettled, honly, nofun, fun e => absurd e htbl, fun _ _ => hanswered, nofun, hscenes, hbanked⟩
      · by_cases hs : ∃ n, s.session = .copying n
        · obtain ⟨n, hn⟩ := hs
          obtain ⟨t, hexec, hsettled, honly, hanswered⟩ :=
            answers rfl (readTableAnswer_copying (s := settle (rxOf h.port) s) htbl hn)
          exact ⟨t, hexec, hsettled, honly, fun _ _ _ => hanswered, fun e => absurd e htbl, nofun,
            fun _ _ hne => absurd hn (hne n), hscenes, hbanked⟩
        · have hs : ∀ n, s.session ≠ .copying n := fun n e => hs ⟨n, e⟩
          obtain ⟨t, hexec, hsettled, honly, hanswered⟩ :=
            answers rfl (readTableAnswer_shadow (s := settle (rxOf h.port) s) htbl hs)
          exact ⟨t, hexec, hsettled, honly, fun _ _ ⟨n, e⟩ => absurd e (hs n), fun e => absurd e htbl, nofun,
            fun _ _ _ => hanswered, hscenes, hbanked⟩
  · exact executed_read hres he (carryReadTable_bad _ hbad)

end Sys2Proof.Machine
end

section
/-! Verification of a bank (O44). -/

namespace Sys2Proof.Machine

/-! ## The checksum -/

/-- The CRC-32 of the model is the one of R164. -/
theorem crc32_asGiven : Crc32AsGiven := by
  intro l
  have hb : ∀ b : Byte, (b ++ 0#24 : BitVec 32) = b.setWidth 32 <<< 24 := by
    intro b
    apply BitVec.eq_of_toNat_eq
    refine (BitVec.toNat_append b 0#24).trans ?_
    simp [Nat.shiftLeft_eq]
    omega
  have hbyte : crc32Byte = fun (r : BitVec 32) (b : Byte) =>
      (shiftedPlace 0x04C11DB7#32)^[8] (r ^^^ (b.setWidth 32 <<< 24)) := by
    funext r b
    rw [crc32Byte, crcShift_eq, hb]
  unfold crc32
  rw [hbyte, BitVec.not_def]
  rfl

/-! ## The first failing entry -/

/-- The first entry of a table that satisfies the predicate (R165). -/
theorem findFrom_some {α β : Type} {p : α → Option β} {l : List α} {i m : Nat} {r : β}
    (h : Table.findFrom p i l = some (m, r)) :
    ∃ k, m = i + k ∧ (∃ a, l[k]? = some a ∧ p a = some r) ∧ ∀ j a, j < k → l[j]? = some a → p a = none := by
  induction l generalizing i with
  | nil => cases h
  | cons a l ih =>
    rw [Table.findFrom] at h
    cases ha : p a with
    | some b =>
      rw [ha] at h
      cases h
      exact ⟨0, rfl, ⟨a, rfl, ha⟩, fun j _ hj => absurd hj (Nat.not_lt_zero j)⟩
    | none =>
      rw [ha] at h
      obtain ⟨k, rfl, hk, hbefore⟩ := ih h
      refine ⟨k + 1, by omega, hk, fun j x hj hx => ?_⟩
      cases j with
      | zero =>
        obtain rfl : a = x := by simpa using hx
        exact ha
      | succ j => exact hbefore j x (by omega) (by simpa using hx)

/-- No entry is found exactly when none satisfies the predicate (R165). -/
theorem findFrom_eq_none_iff {α β : Type} {p : α → Option β} {l : List α} {i : Nat} :
    Table.findFrom p i l = none ↔ ∀ a ∈ l, p a = none := by
  refine ⟨fun h => ?_, fun h => findFrom_none h i⟩
  induction l generalizing i with
  | nil => simp
  | cons a l ih =>
    rw [Table.findFrom] at h
    cases ha : p a with
    | some b => rw [ha] at h; cases h
    | none => rw [ha] at h; simpa [ha] using ih h

section

variable {α β : Type} {n : Nat} {p : α → Option β} {v : Vector α n}

/-- The first entry of a table, by its index (R165). -/
theorem findFrom_table_some {m : Nat} {r : β} (h : Table.findFrom p 0 v.toList = some (m, r)) :
    ∃ i : Fin n, m = i.val ∧ p v[i] = some r ∧ ∀ j : Fin n, j < i → p v[j] = none := by
  obtain ⟨k, rfl, ⟨a, ha, hp⟩, hbefore⟩ := findFrom_some h
  rw [Vector.getElem?_toList, Vector.getElem?_eq_some_iff] at ha
  obtain ⟨hk, rfl⟩ := ha
  exact ⟨⟨k, hk⟩, Nat.zero_add k, hp, fun j hj => hbefore j _ hj (by simp)⟩

theorem findFrom_table_eq_none_iff : Table.findFrom p 0 v.toList = none ↔ ∀ i : Fin n, p v[i] = none := by
  rw [findFrom_eq_none_iff]
  refine ⟨fun h i => h _ (by simp), fun h a ha => ?_⟩
  obtain ⟨i, hi, rfl⟩ := List.mem_iff_getElem.mp ha
  exact h ⟨i, by simpa using hi⟩

end

/-- Every entry of a bank passes its checks (R165). -/
def Bank.EntriesPass (b : Bank) : Prop :=
  checkConfig b.config = none ∧ (∀ i : Fin Config.channels, checkMap b.map[i] = none) ∧
    ∀ i : Fin 16, checkProfile b.profiles[i] = none

theorem entryFailure_eq_none_iff {b : Bank} : entryFailure b = none ↔ b.EntriesPass := by
  unfold entryFailure Bank.EntriesPass
  rw [← findFrom_table_eq_none_iff, ← findFrom_table_eq_none_iff]
  cases checkConfig b.config with
  | some => simp
  | none =>
    cases Table.findFrom checkMap 0 b.map.toList with
    | some => simp
    | none => cases Table.findFrom checkProfile 0 b.profiles.toList <;> simp

/-- The first failing entry is of the first table with one, and the first of its table (R165). -/
theorem entryFailure_some {b : Bank} {f : Failure} (h : entryFailure b = some f) :
    (∃ reason, f = ⟨reason, some ⟨.config, 0⟩⟩ ∧ checkConfig b.config = some reason) ∨
    (∃ reason, ∃ i : Fin Config.channels, f = ⟨reason, some ⟨.map, i.val⟩⟩ ∧ checkMap b.map[i] = some reason ∧
      checkConfig b.config = none ∧ ∀ j : Fin Config.channels, j < i → checkMap b.map[j] = none) ∨
    (∃ reason, ∃ i : Fin 16, f = ⟨reason, some ⟨.profiles, i.val⟩⟩ ∧ checkProfile b.profiles[i] = some reason ∧
      checkConfig b.config = none ∧ (∀ j : Fin Config.channels, checkMap b.map[j] = none) ∧
      ∀ j : Fin 16, j < i → checkProfile b.profiles[j] = none) := by
  unfold entryFailure at h
  split at h
  · rename_i reason hc
    cases h
    exact .inl ⟨reason, rfl, hc⟩
  · rename_i hc
    split at h
    · rename_i m reason hm
      cases h
      obtain ⟨i, rfl, hi, hbefore⟩ := findFrom_table_some hm
      exact .inr (.inl ⟨reason, i, rfl, hi, hc, hbefore⟩)
    · rename_i hm
      split at h
      · rename_i m reason hp
        cases h
        obtain ⟨i, rfl, hi, hbefore⟩ := findFrom_table_some hp
        exact .inr (.inr ⟨reason, i, rfl, hi, hc, findFrom_table_eq_none_iff.mp hm, hbefore⟩)
      · cases h

/-- Verification succeeds when every entry passes and the checksum agrees (R165). -/
theorem verify_eq_none_iff {b : Bank} {k : Crc32} : verify b k = none ↔ crc32 b.image = k ∧ b.EntriesPass := by
  rw [← entryFailure_eq_none_iff, verify]
  cases entryFailure b <;> simp

/-- Verification fails at an entry, or, when every entry passes, by the checksum (R165). -/
theorem verify_some {b : Bank} {k : Crc32} {f : Failure} (h : verify b k = some f) :
    (f = ⟨.checksum, none⟩ ∧ crc32 b.image ≠ k ∧ b.EntriesPass) ∨ entryFailure b = some f := by
  rw [verify] at h
  cases he : entryFailure b with
  | some g => rw [he] at h; exact .inr h
  | none =>
    rw [he] at h
    dsimp only at h
    split at h
    · cases h
    · rename_i hk
      cases h
      exact .inl ⟨rfl, hk, entryFailure_eq_none_iff.mp he⟩

/-! ## The checks of an entry -/

/-- A list of checks of the model finds the first that fails of the checks as given (R165). -/
theorem firstFails_firstFailed {given : List (Prop × FailureReason)} {checks : List (Bool × FailureReason)}
    (h : List.Forall₂ (fun x y => (x.1 ↔ y.1 = true) ∧ x.2 = y.2) given checks) :
    FirstFails given (firstFailed checks) := by
  induction h with
  | nil => rfl
  | @cons x y _ _ hxy _ ih =>
    obtain ⟨fails, reason⟩ := x
    obtain ⟨failed, reason'⟩ := y
    obtain ⟨hfails, rfl⟩ := hxy
    refine ⟨fun hf => if_pos (hfails.mp hf), fun hf => ?_⟩
    rw [firstFailed, if_neg (mt hfails.mpr hf)]
    exact ih

theorem badSummaryKind_iff (c : ConfigRecord) :
    badSummaryKind c = true ↔ ∃ i : Fin 8, i.val < c.summaryLength.toNat ∧ 15 < c.summary[i].toNat := by
  unfold badSummaryKind
  rw [List.any_eq_true]
  constructor
  · rintro ⟨x, hx, hbad⟩
    obtain ⟨i, hi, rfl⟩ := List.mem_iff_getElem.mp hx
    rw [List.length_take, Vector.length_toList] at hi
    refine ⟨⟨i, by omega⟩, by simp only; omega, ?_⟩
    simpa using hbad
  · rintro ⟨i, hi, hbad⟩
    refine ⟨c.summary[i], List.mem_iff_getElem.mpr ⟨i, ?_, ?_⟩, by simpa using hbad⟩
    · rw [List.length_take, Vector.length_toList]; omega
    · simp

theorem summaryReserved_iff (c : ConfigRecord) :
    summaryReserved c = true ↔ ∃ i : Fin 8, c.summaryLength.toNat ≤ i.val ∧ c.summary[i] ≠ 0 := by
  unfold summaryReserved
  rw [List.any_eq_true]
  constructor
  · rintro ⟨x, hx, hbad⟩
    obtain ⟨i, hi, rfl⟩ := List.mem_iff_getElem.mp hx
    rw [List.length_drop, Vector.length_toList] at hi
    refine ⟨⟨c.summaryLength.toNat + i, by omega⟩, Nat.le_add_right _ _, ?_⟩
    simpa using hbad
  · rintro ⟨i, hi, hbad⟩
    refine ⟨c.summary[i], List.mem_iff_getElem.mpr ⟨i - c.summaryLength.toNat, ?_, ?_⟩, by simpa using hbad⟩
    · rw [List.length_drop, Vector.length_toList]; omega
    · simp [hi]

theorem MergeRule.ofCode_eq_none_iff {c : BitVec 3} : MergeRule.ofCode c = none ↔ 4 < c.toNat := by
  revert c; decide

theorem MergeRule.ofCode_sources {c : BitVec 3} {rule : MergeRule} (h : MergeRule.ofCode c = some rule) :
    sourcesFor rule = (decide (1 ≤ c.toNat), decide (2 ≤ c.toNat)) := by
  revert c rule; decide

/-- The sources present are not those that the merge rule asks (R41, R167). -/
theorem sourcesFail_iff {x y : BitVec 16} {p q : Prop} [Decidable p] [Decidable q] :
    ((sourcePresent x, sourcePresent y) != (decide p, decide q)) = true ↔
      ¬ ((x.getLsbD 15 = true ↔ p) ∧ (y.getLsbD 15 = true ↔ q)) := by
  rw [bne_iff_ne, ne_eq, Prod.mk.injEq, Bool.eq_iff_iff (a := sourcePresent x), Bool.eq_iff_iff (a := sourcePresent y),
    decide_eq_true_iff, decide_eq_true_iff]
  rfl

/-- A present source is bad when it names no port or no slot (R167, R211). -/
theorem badSource_iff (f : BitVec 16) :
    badSource f = true ↔ f.getLsbD 15 = true ∧ (1 < (f.extractLsb' 9 6).toNat ∨ 384 ≤ (f.extractLsb' 0 9).toNat) := by
  rw [badSource, Bool.and_eq_true]
  refine and_congr_right fun hpresent => ?_
  rw [decodeSource, if_pos hpresent]
  by_cases hslot : (f.extractLsb' 0 9).toNat < Config.channels
  · have hport : 1 < (f.extractLsb' 9 6).toNat ↔ f.extractLsb' 9 6 ≠ 0 ∧ f.extractLsb' 9 6 ≠ 1 := by
      generalize f.extractLsb' 9 6 = x
      revert x; decide
    rw [dif_pos hslot, or_iff_left (Nat.not_le.mpr hslot), hport]
    split
    · simp_all
    · split <;> simp_all
  · rw [dif_neg hslot]
    exact iff_of_true rfl (.inr (Nat.not_lt.mp hslot))

theorem ProfileKind.ofCode_eq_none_iff {c : Byte} : ProfileKind.ofCode c = none ↔ 2 < c.toNat := by
  revert c; decide

/-- The kind of a profile record by its code (R212). -/
theorem ProfileKind.ofCode_some {c : Byte} {kind : ProfileKind} (h : ProfileKind.ofCode c = some kind) :
    (kind = .snap ↔ c = 0) ∧ (kind = .ramp ↔ c = 2) := by
  revert c kind; decide

/-- Settles O44: the model's lists of checks are those given, check by check, and the tables are searched in their order. -/
theorem verificationFindsTheFirstFailure : Obligations.VerificationFindsTheFirstFailure := by
  refine ⟨crc32_asGiven, layouts_asGiven, fun b k => ⟨image_asGiven b, fun f hf => ?_, verify_eq_none_iff, fun c => ?_,
    fun e => ?_, fun r => ?_⟩⟩
  · exact (verify_some hf).imp id entryFailure_some
  · refine firstFails_firstFailed ?_
    simp [badSummaryKind_iff, summaryReserved_iff, or_assoc]
  · unfold checkMap
    cases hrule : MergeRule.ofCode e.rule with
    | none => exact ⟨fun _ => rfl, fun h => absurd (MergeRule.ofCode_eq_none_iff.mp hrule) h⟩
    | some rule =>
      refine ⟨fun h => absurd (MergeRule.ofCode_eq_none_iff.mpr h) (by simp [hrule]), fun _ => firstFails_firstFailed ?_⟩
      rw [MergeRule.ofCode_sources hrule]
      refine .cons ⟨sourcesFail_iff.symm, rfl⟩ ?_
      simp [badSource_iff]
  · unfold checkProfile
    cases hkind : ProfileKind.ofCode r.kind with
    | none => exact ⟨fun _ => rfl, fun h => absurd (ProfileKind.ofCode_eq_none_iff.mp hkind) h⟩
    | some kind =>
      obtain ⟨hsnap, hramp⟩ := ProfileKind.ofCode_some hkind
      refine ⟨fun h => absurd (ProfileKind.ofCode_eq_none_iff.mpr h) (by simp [hkind]), fun _ => firstFails_firstFailed ?_⟩
      simp [hsnap, hramp]

end Sys2Proof.Machine
end

section
/-! WRITE_TABLE on a banked table (O40). -/

namespace Sys2Proof.Machine

/-! ## Entries laid out and read back -/

theorem bytes24_triple (b2 b1 b0 : Byte) : bytes24 (triple b2 b1 b0) = [b2, b1, b0] := by
  have hvalue : (triple b2 b1 b0).toNat = b2.toNat * 65536 + b1.toNat * 256 + b0.toNat := by
    refine (toNat_append_eq (b2 ++ b1) b0).trans ?_
    rw [toNat_append_eq]
    omega
  have h2 := b2.isLt
  have h1 := b1.isLt
  have h0 := b0.isLt
  simp only [bytes24, List.cons.injEq, and_true]
  refine ⟨?_, ?_, ?_⟩ <;>
    (apply BitVec.eq_of_toNat_eq
     rw [BitVec.extractLsb'_toNat, hvalue, Nat.shiftRight_eq_div_pow]
     omega)

/-- A list of bytes, byte by byte. -/
theorem eq_map_byteAt {l : List Byte} {n : Nat} (h : l.length = n) : l = (List.range n).map (byteAt l) := by
  refine List.ext_getElem (by simp [h]) fun i hi _ => ?_
  simp [byteAt, hi]

theorem config_readBack {l : List Byte} (h : l.length = 32) : (ConfigRecord.ofBytes l).bytes = l := by
  conv_rhs => rw [eq_map_byteAt h]
  simp only [ConfigRecord.bytes, ConfigRecord.ofBytes, bytes16_pair]
  rfl

theorem map_readBack {l : List Byte} (h : l.length = 6) : (MapEntry.ofBytes l).bytes = l := by
  conv_rhs => rw [eq_map_byteAt h]
  have first : ∀ b : Byte, b.extractLsb' 5 3 ++ b.extractLsb' 0 5 = b := fun b => by
    apply BitVec.eq_of_toNat_eq
    have := b.isLt
    simp only [toNat_append_eq, BitVec.extractLsb'_toNat, Nat.shiftRight_eq_div_pow]
    omega
  have second : ∀ b : Byte, b.extractLsb' 4 4 ++ b.extractLsb' 1 3 ++ b.extractLsb' 0 1 = b := fun b => by
    apply BitVec.eq_of_toNat_eq
    have := b.isLt
    simp only [toNat_append_eq, BitVec.extractLsb'_toNat, Nat.shiftRight_eq_div_pow]
    omega
  simp only [MapEntry.bytes, MapEntry.ofBytes, bytes16_pair, first, second]
  rfl

theorem profile_readBack {l : List Byte} (h : l.length = 24) : (ProfileRecord.ofBytes l).bytes = l := by
  conv_rhs => rw [eq_map_byteAt h]
  simp only [ProfileRecord.bytes, ProfileRecord.ofBytes, bytes16_pair, bytes24_triple]
  rfl

theorem curve_readBack {l : List Byte} (h : l.length = 34) : curveBytes (curveOfBytes l) = l := by
  have hpoints : (curveOfBytes l).toList =
      (List.range 17).map fun k => pair (byteAt l (2 * k)) (byteAt l (2 * k + 1)) := by
    refine List.ext_getElem (by simp) fun i hi _ => ?_
    simp [curveOfBytes]
  conv_rhs => rw [eq_map_byteAt h]
  rw [curveBytes, hpoints, bytesOfHalves, List.flatMap_map]
  simp only [bytes16_pair]
  rfl

/-! ## Tables written one entry after another -/

/-- An entry that no write names stands (R159). -/
theorem getElem?_writeCyclic_other {α : Type} {n start i : Nat} {es : List α} {v : Vector α n}
    (h : ∀ k, k < es.length → i ≠ (start + k) % n) : (Table.writeCyclic start es v)[i]? = v[i]? := by
  induction es generalizing start v with
  | nil => rfl
  | cons e es ih =>
    rw [Table.writeCyclic, ih fun k hk => by rw [Nat.add_right_comm]; exact h (k + 1) (by simpa using hk)]
    exact Vector.getElem?_setIfInBounds_ne (h 0 (by simp)).symm

/-- Of no more entries than the table has, each has a place of its own (R159). -/
theorem place_injective {n start j k : Nat} (hj : j < n) (hk : k < n) (h : (start + j) % n = (start + k) % n) :
    j = k := by
  have := Nat.ModEq.add_left_cancel' start h
  rwa [Nat.ModEq, Nat.mod_eq_of_lt hj, Nat.mod_eq_of_lt hk] at this

/-- An entry that is written stands in its place (R159). -/
theorem getElem?_writeCyclic_at {α : Type} {n start k : Nat} {es : List α} {v : Vector α n} {e : α} (hl : es.length ≤ n)
    (hk : es[k]? = some e) : (Table.writeCyclic start es v)[(start + k) % n]? = some e := by
  induction es generalizing start v k with
  | nil => cases hk
  | cons a es ih =>
    rw [List.length_cons] at hl
    rw [Table.writeCyclic]
    cases k with
    | zero =>
      obtain rfl : a = e := by simpa using hk
      rw [getElem?_writeCyclic_other fun j hj he => ?_]
      · rw [Nat.add_zero]
        simp [Nat.mod_lt start (show 0 < n by omega)]
      · rw [Nat.add_assoc] at he
        have := place_injective (by omega) (by omega) he
        omega
    | succ k =>
      rw [← Nat.add_assoc, Nat.add_right_comm]
      exact ih (by omega) (by simpa using hk)

theorem readRange_one {α : Type} {n : Nat} (i : Nat) (v : Vector α n) : Table.readRange i 1 v = v[i]?.toList := by
  rw [Table.readRange, List.take_one, List.head?_drop, Vector.getElem?_toList]

section

variable {α : Type} {n start : Nat} {parse : List Byte → α} {bytes : α → List Byte} {entries : List (List Byte)}
  {v : Vector α n}

/-- An entry that is written reads back as written, where its layout reads back what it is made of (R151, R159). -/
theorem readRange_written {k : Nat} {e : List Byte} (hl : entries.length ≤ n) (hk : entries[k]? = some e)
    (he : bytes (parse e) = e) :
    (Table.readRange ((start + k) % n) 1 (Table.writeCyclic start (entries.map parse) v)).flatMap bytes = e := by
  rw [readRange_one, getElem?_writeCyclic_at (e := parse e) (by simpa using hl) (by rw [List.getElem?_map, hk]; rfl)]
  simpa using he

theorem readRange_unwritten {i : Nat} (h : ∀ k, k < entries.length → i ≠ (start + k) % n) :
    (Table.readRange i 1 (Table.writeCyclic start (entries.map parse) v)).flatMap bytes =
      (Table.readRange i 1 v).flatMap bytes := by
  rw [readRange_one, readRange_one, getElem?_writeCyclic_other (by simpa using h)]

end

/-! ## Banks written -/

/-- An entry that is written reads back as written (R151, R159). -/
theorem readBank_written {tbl : TableName} (htbl : tbl ≠ .scenes) {start k : Nat} {entries : List (List Byte)}
    {e : List Byte} (b : Bank) (hl : entries.length ≤ tbl.entries) (hk : entries[k]? = some e)
    (he : e.length = tbl.entrySize) :
    readBank tbl ((start + k) % tbl.entries) 1 (writeBank tbl start entries b) = e := by
  cases tbl with
  | config =>
    obtain rfl : entries = [e] := by
      have hl : entries.length ≤ 1 := hl
      match entries, hl, k, hk with
      | [x], _, 0, hk => simpa using hk
      | [x], _, k + 1, hk => simp at hk
    show readBank .config ((start + k) % 1) 1 _ = e
    rw [Nat.mod_one]
    simpa [readBank, writeBank] using config_readBack he
  | map => exact readRange_written hl hk (map_readBack he)
  | profiles => exact readRange_written hl hk (profile_readBack he)
  | curves => exact readRange_written hl hk (curve_readBack he)
  | scenes => exact absurd rfl htbl

/-- An entry of the table that no write names stands (R159). -/
theorem readBank_unwritten {tbl : TableName} {start i : Nat} {entries : List (List Byte)} (b : Bank)
    (h : ∀ k, k < entries.length → i ≠ (start + k) % tbl.entries) :
    readBank tbl i 1 (writeBank tbl start entries b) = readBank tbl i 1 b := by
  cases tbl with
  | config =>
    cases entries with
    | nil => rfl
    | cons e es =>
      have hi : i ≠ (start + 0) % 1 := h 0 (Nat.zero_lt_succ _)
      rw [Nat.mod_one] at hi
      obtain ⟨j, rfl⟩ := Nat.exists_eq_succ_of_ne_zero hi
      simp [readBank]
  | map => exact readRange_unwritten h
  | profiles => exact readRange_unwritten h
  | curves => exact readRange_unwritten h
  | scenes => rfl

/-- The other tables of the bank stand (R159). -/
theorem readBank_writeBank_other {tbl other : TableName} (h : other ≠ tbl) (start i count : Nat)
    (entries : List (List Byte)) (b : Bank) :
    readBank other i count (writeBank tbl start entries b) = readBank other i count b := by
  cases tbl with
  | config =>
    unfold writeBank
    cases entries.getLast? <;> cases other <;> first | rfl | exact absurd rfl h
  | map | profiles | curves | scenes => cases other <;> first | rfl | exact absurd rfl h

theorem getElem?_chunks {size n k : Nat} (l : List Byte) (hk : k < n) :
    (chunks size n l)[k]? = some ((l.drop (k * size)).take size) := by
  induction n generalizing k l with
  | zero => cases hk
  | succ n ih =>
    cases k with
    | zero => simp [chunks]
    | succ k => 
      rw [chunks, List.getElem?_cons_succ, ih _ (by omega), List.drop_drop, Nat.succ_mul, Nat.add_comm]

/-- Each piece has the size, where the bytes are enough for all. -/
theorem length_piece {size n k : Nat} {l : List Byte} (hl : l.length = n * size) (hk : k < n) :
    ((l.drop (k * size)).take size).length = size := by
  rw [List.length_take, List.length_drop, hl, ← Nat.sub_mul, Nat.min_eq_left (Nat.le_mul_of_pos_left size (by omega))]

/-! ## WRITE_TABLE -/

theorem TableName.perRequest_le_entries (tbl : TableName) : tbl.perRequest ≤ tbl.entries := by cases tbl <;> decide

/-- A write to a banked table reaches the shadow alone, and latches nothing (R159, R160). -/
theorem writeCarried_banked {tbl : TableName} (htbl : tbl ≠ .scenes) (o : SessionOwner) (start : Nat)
    (entries : List (List Byte)) (s : State) :
    writeCarried o tbl start entries s =
      ⟨{ s with
          banks := s.banks.set s.active.other (writeBank tbl start entries s.shadowBank)
          session := .opened o s.sessionExpiry
          pointer := ⟨tbl, (start + entries.length) % tbl.entries⟩ }, .ok,
        tbl.code :: bytes16 (BitVec.ofNat 16 ((start + entries.length) % tbl.entries)), []⟩ := by
  have hwritten : writeEntries tbl start entries s =
      { s with banks := s.banks.set s.active.other (writeBank tbl start entries s.shadowBank) } := by
    cases tbl <;> first | rfl | exact absurd rfl htbl
  have hlatches : resolutionLatches s (writeEntries tbl start entries s) = [] :=
    resolutionLatches_nil fun c h => by rw [hwritten] at h; exact h
  unfold writeCarried
  dsimp only
  rw [hlatches, hwritten]

theorem carryWrite_refused {o : SessionOwner} {table : Byte} {index : BitVec 16} {count : Byte} {bytes : List Byte}
    {r : Result} {s : State} (hr : sessionRefusal o s = some r) :
    carryWrite o table index count bytes s = ⟨s, r, [], []⟩ := by
  rw [carryWrite, hr]
  rfl

theorem startIndex_none {tbl : TableName} {index : BitVec 16} {pointer : WritePointer}
    (h : (index ≠ 0xFFFF ∧ tbl.entries ≤ index.toNat) ∨ (index = 0xFFFF ∧ pointer.table ≠ tbl)) :
    startIndex tbl index pointer = none := by
  unfold startIndex
  obtain ⟨hi, hn⟩ | ⟨hi, hn⟩ := h
  · rw [if_neg hi, if_neg (Nat.not_lt.mpr hn)]
  · rw [if_pos hi, if_neg hn]

/-- A WRITE_TABLE of the owner in OPEN with invalid arguments is refused (R158). -/
theorem carryWrite_bad {o : SessionOwner} {table : Byte} {index : BitVec 16} {count : Byte} {bytes : List Byte}
    {s : State} (hr : sessionRefusal o s = none)
    (h : 4 < table.toNat ∨ count.toNat = 0 ∨ ∃ tbl : TableName, table = tbl.code ∧
      (tbl.perRequest < count.toNat ∨ bytes.length ≠ count.toNat * tbl.entrySize ∨
        (index ≠ 0xFFFF ∧ tbl.entries ≤ index.toNat) ∨ (index = 0xFFFF ∧ s.pointer.table ≠ tbl))) :
    carryWrite o table index count bytes s = ⟨s, .badArgument, [], []⟩ := by
  rw [carryWrite, hr]
  dsimp only
  cases htable : TableName.ofCode table with
  | none => rfl
  | some tbl =>
    dsimp only
    split
    · rfl
    · rename_i hargs
      obtain h | h | ⟨tbl', rfl, h⟩ := h
      · rw [TableName.ofCode_eq_none h] at htable; cases htable
      · exact absurd (.inl h) hargs
      · obtain rfl : tbl' = tbl := by rw [TableName.ofCode_code] at htable; injection htable
        rw [startIndex_none (by tauto)]
        rfl

/-- What an answer leaves of the banks (R134). -/
theorem OnlyAnswer.banks {w t : State} (h : OnlyAnswer w t) : t.banks = w.banks ∧ t.shadowBank = w.shadowBank := by
  obtain ⟨hframe, -⟩ := h
  rw [hframe]
  exact ⟨rfl, rfl⟩

/-- Settles O40: the entries are the pieces of the payload, and each reads back from its place. -/
theorem writtenEntriesReadBack : Obligations.WrittenEntriesReadBack := by
  refine ⟨tables_asGiven, layouts_asGiven,
    fun h token index tbl count bytes s n start hres he hs htbl h1 h2 h3 h4 h5 => ?_,
    fun h token index table count bytes s o hres he ho hbad => ?_⟩
  · have hlength := length_chunks tbl.entrySize count.toNat bytes
    have hcarry := (carryWrite_ok (s := settle (rxOf h.port) s) hs h1 h2 h3 h4 h5).trans
      (writeCarried_banked htbl _ _ _ _)
    rw [hlength] at hcarry
    obtain ⟨t, hexec, hsettled, honly, hanswered⟩ := executed_loading hres he hcarry
    obtain ⟨-, -, -, -, hsession, hpointer, hactive⟩ := honly.part
    obtain ⟨hbanks, hshadowed⟩ := honly.banks
    have hshadow : t.shadowBank =
        writeBank tbl start (chunks tbl.entrySize count.toNat bytes) s.shadowBank :=
      hshadowed.trans (Banks.get_set_self _ _ _)
    refine ⟨t, hexec, hsettled, hanswered, hpointer, hsession, hactive.trans (Banks.get_set_other _ _ _),
      fun k hk => ?_, fun i hi => ?_, fun other i hother => ?_, ?_⟩
    · rw [hshadow]
      exact readBank_written htbl _ (hlength.le.trans (h2.trans tbl.perRequest_le_entries)) (getElem?_chunks bytes hk)
        (length_piece h3 hk)
    · rw [hshadow]
      exact readBank_unwritten _ (by rwa [hlength])
    · rw [hshadow]
      exact readBank_writeBank_other hother _ _ _ _ _
    · rw [hbanks, hsession, hpointer]
      exact honly
  · subst ho
    have answers : ∀ {r}, carryWrite ⟨h.port, token⟩ table index count bytes (settle (rxOf h.port) s) =
        ⟨settle (rxOf h.port) s, r, [], []⟩ →
        ∃ t, exec (.writeTable h token table index count bytes) s = .next t ∧ Settled (rxOf h.port) s t ∧
          OnlyAnswer s t ∧ Answered h 0x11 r [] [] s t := executed_read hres he
    have refuses : ∀ {r}, sessionRefusal ⟨h.port, token⟩ s = some r →
        ∃ t, exec (.writeTable h token table index count bytes) s = .next t ∧ Settled (rxOf h.port) s t ∧
          OnlyAnswer s t ∧ Answered h 0x11 r [] [] s t :=
      fun hr => answers (carryWrite_refused (s := settle (rxOf h.port) s) hr)
    have hrefusal := sessionRefusal_asGiven ⟨h.port, token⟩ s
    cases hs : s.session <;> rw [hs] at hrefusal hbad
    case opened owner n =>
      by_cases ho : owner = ⟨h.port, token⟩
      · obtain ⟨t, hexec, hsettled, honly, hanswered⟩ :=
          answers (carryWrite_bad (s := settle (rxOf h.port) s) (hrefusal.trans (if_pos ho)) (hbad n (by rw [ho])))
        exact ⟨t, _, hexec, hsettled, honly, hanswered, (if_pos ho).symm⟩
      · obtain ⟨t, hexec, hsettled, honly, hanswered⟩ := refuses (hrefusal.trans (if_neg ho))
        exact ⟨t, _, hexec, hsettled, honly, hanswered, (if_neg ho).symm⟩
    all_goals
      obtain ⟨t, hexec, hsettled, honly, hanswered⟩ := refuses hrefusal
      exact ⟨t, _, hexec, hsettled, honly, hanswered, rfl⟩

end Sys2Proof.Machine
end

section
/-! The PAUSE line, acknowledged kinds and the summary byte (O7, O48, O50). -/

namespace Sys2Proof.Machine

/-! ## PAUSE -/

/-- The assertion of PAUSE outside RESET is a latching of PAUSED on the state with PAUSE asserted (R183, R184). -/
theorem exec_pauseAssert_running {s : State} (hr : s.inReset = false) (hp : s.pause = false) :
    exec .pauseAssert s = .next (latch .paused { s with pause := true }) := by
  simp [exec, execPauseAssert, hr, hp]

/-- Under RESET the assertion of PAUSE sets the PAUSE state and latches nothing (R184, R194). -/
theorem exec_pauseAssert_inReset {s : State} (hr : s.inReset = true) :
    exec .pauseAssert s = .next { s with pause := true } := by
  simp only [exec, execPauseAssert]
  split
  · rename_i hp
    rw [← hp]
  · rfl

/-- Settles O7: outside RESET the edge is one latching; under RESET, and where PAUSE is released, only the PAUSE state
moves. -/
theorem pauseFollowsItsLine : Obligations.PauseFollowsItsLine := by
  refine fun s => ⟨fun hr hp => ?_, exec_pauseAssert_inReset, rfl⟩
  have noticed := latch_noticed .paused { s with pause := true }
  exact ⟨_, exec_pauseAssert_running hr hp, noticed.pause, noticed.rx,
    (latch_latches .paused { s with pause := true }).congr rfl rfl rfl rfl, latch_only .paused _⟩

/-! ## ACK_CONDITIONS -/

/-- What is left in a set of which kinds were removed (R185, R197). -/
theorem hasKind_of_removed {x set kinds : KindSet} (h : x = removeKinds set kinds) (k : Condition) :
    hasKind x k = true ↔ hasKind set k = true ∧ hasKind kinds k = false := by
  rw [h, hasKind_removeKinds, Bool.and_eq_true, Bool.not_eq_true']

/-- An answer leaves the conditions as carrying the command out left them (R134). -/
theorem OnlyAnswer.conditionsStand {w t : State} (h : OnlyAnswer w t) :
    t.latched = w.latched ∧ t.pendingNotices = w.pendingNotices ∧ t.alert = w.alert := by
  obtain ⟨hframe, -⟩ := h
  rw [hframe]
  exact ⟨rfl, rfl, rfl⟩

/-- An answer to a command that changed the conditions, seen from the state before the command (R134, R185). -/
theorem OnlyAnswer.withConditions {s w t : State} (h : OnlyAnswer w t)
    (hw : w = { s with
      rx := w.rx, latched := w.latched, pendingNotices := w.pendingNotices, alert := w.alert }) :
    OnlyAnswerAndConditions s t := by
  obtain ⟨hframe, hserves⟩ := h
  refine ⟨?_, hserves.congr ?_ ?_ ?_ ?_ ?_ ?_ rfl rfl rfl rfl rfl rfl⟩
  · rw [hframe, hw]
  all_goals rw [hw]
  · exact id

/-- Settles O48: the kinds leave the two sets and ALERT is evaluated before the reply is formed, and the reply touches
neither. -/
theorem acknowledgedKindsAreCleared : Obligations.AcknowledgedKindsAreCleared := by
  intro h kinds extra s hres he
  have hcarry : guardReserved h (carryAck kinds) (settle (rxOf h.port) s) = carryAck kinds (settle (rxOf h.port) s) :=
    if_pos hres
  obtain ⟨hsettled, honly, hanswered⟩ := executed_plain (form := .acts) he hcarry rfl rfl rfl rfl rfl
  obtain ⟨hlatched, hpending, halert⟩ := honly.conditionsStand
  obtain ⟨-, -, -, -, -, -, hbank⟩ := honly.part
  refine ⟨_, whenRunning_next he.1, hsettled, hanswered, honly.withConditions rfl,
    (evalAlert_alertFollows _).of hlatched halert hbank, hasKind_of_removed hlatched, hasKind_of_removed hpending⟩

/-! ## The summary byte -/

theorem kinds_asGiven : KindsAsGiven :=
  ⟨fun k => by cases k <;> rfl, fun _ _ => rfl, fun p => by cases p <;> rfl⟩

/-- Bit i of the summary byte is its entry's bit (R186, R197). -/
theorem getLsbD_summaryByte (s : State) (i : Fin 8) :
    s.summaryByte.getLsbD i.val = summaryBit s.config s.latched i := by
  unfold State.summaryByte
  rw [BitVec.getLsbD_ofBoolListLE]
  fin_cases i <;> rfl

/-- A number is in a set exactly when it is the number of a kind in the set (R182, R197). -/
theorem getLsbD_iff_hasKind (set : KindSet) (n : Nat) :
    set.getLsbD n = true ↔ ∃ k : Condition, k.number = n ∧ hasKind set k = true := by
  constructor
  · intro h
    obtain ⟨k, hk⟩ := Condition.exists_number n (BitVec.lt_of_getLsbD h)
    exact ⟨k, hk, by rw [hasKind, hk, h]⟩
  · rintro ⟨k, rfl, h⟩
    exact h

/-- Settles O50: the byte is built bit by bit from the entries of the selection. -/
theorem summaryByteShowsTheSelection : Obligations.SummaryByteShowsTheSelection := by
  refine ⟨kinds_asGiven, fun s i => ?_⟩
  rw [getLsbD_summaryByte, summaryBit, Bool.and_eq_true, decide_eq_true_eq, getLsbD_iff_hasKind]

end Sys2Proof.Machine
end

section
/-! What a step can do to the conditions and the reply queue: each command as a sequence of a few operations. For O54 and
O55. -/

namespace Sys2Proof.Machine

/-! ## The operations on the conditions and the reply queue -/

/-- The states agree on the conditions, on what the reply queue holds, and on the program in force. -/
def SameConditions (s t : State) : Prop := (t.conditions, t.activeBank) = (s.conditions, s.activeBank)

/-- One of the operations by which the conditions and the reply queue change. -/
inductive ConditionMove : State → State → Prop
  /-- Something else happens. -/
  | stand {s t} : SameConditions s t → ConditionMove s t
  /-- The first half of a latching (R183). -/
  | flag k s : ConditionMove s (latchFlag k s).1
  /-- A latched kind is offered its notice (R189). -/
  | offer {k s} : hasKind s.latched k = true → ConditionMove s (offerNotice k s)
  /-- A reply joins a queue with room (R130, R136). -/
  | join r p {s} : s.queue.length < 8 → ConditionMove s (joinQueue (.reply r) p s)
  /-- Kinds are acknowledged (R185). -/
  | acknowledge kinds s : ConditionMove s (carryAck kinds s).state
  /-- Conditions and reply queue are empty, after a reset or a warm restart (R145, R148, R194, R195). -/
  | clear {s t} : t.conditions = ⟨0, 0, false, []⟩ → ConditionMove s t
  /-- An entry of the queue completes, and a pending notice may take its place (R138, R190). -/
  | complete p s : ConditionMove s (entryCompleted p s)
  /-- The banks are exchanged, and with them the alert mask (R171, R192). -/
  | exchange committed s : ConditionMove s (exchangeBanks committed s)

/-- The second state comes from the first by such operations, one after another. -/
def ConditionMoves (s t : State) : Prop := Relation.ReflTransGen ConditionMove s t

theorem ConditionMove.moves {s t : State} (h : ConditionMove s t) : ConditionMoves s t := .single h

theorem ConditionMoves.refl (s : State) : ConditionMoves s s := Relation.ReflTransGen.refl

theorem ConditionMoves.trans {s t u : State} (h : ConditionMoves s t) (k : ConditionMoves t u) : ConditionMoves s u :=
  Relation.ReflTransGen.trans h k

theorem ConditionMoves.of_same {s t : State} (h : SameConditions s t) : ConditionMoves s t :=
  (ConditionMove.stand h).moves

/-- Operations on a state with the same conditions. -/
theorem ConditionMoves.after {s t u : State} (k : ConditionMoves t u) (h : SameConditions s t) : ConditionMoves s u :=
  (ConditionMoves.of_same h).trans k

/-- What every operation keeps, their sequences keep. -/
theorem ConditionMoves.keeps {P : State → Prop} (hP : ∀ {s t}, ConditionMove s t → P s → P t) {s t : State}
    (h : ConditionMoves s t) (hs : P s) : P t := by
  induction h with
  | refl => exact hs
  | tail _ move ih => exact hP move ih

theorem SameConditions.of_steady {s t : State} (h : Steady s t) (hc : t.conditions = s.conditions) :
    SameConditions s t :=
  Prod.ext hc h.activeBank

/-! ## Transmitters, latchings and paths -/

theorem serveD_conditions (s : State) : (serveD s).conditions = s.conditions := by
  unfold State.conditions; rw [serveD_frame]

theorem serveA_conditions (s : State) : (serveA s).conditions = s.conditions := by
  unfold State.conditions; rw [serveA_entries, serveA_frame]

theorem serveB_conditions (s : State) : (serveB s).conditions = s.conditions := by
  unfold State.conditions; rw [serveB_entries, serveB_frame]

/-- A transmitter that looks for a frame leaves the conditions and what the queue holds (R137, R138). -/
theorem serve_sameConditions (x : Transmitter) (s : State) : SameConditions s (serve x s) := by
  refine .of_steady (serve_linked x s).steady ?_
  cases x
  · exact serveD_conditions s
  · exact serveA_conditions s
  · exact serveB_conditions s

/-- A latching flags its kind and may offer its notice (R183). -/
theorem latch_moves (k : Condition) (s : State) : ConditionMoves s (latch k s) := by
  have latched : hasKind (latchFlag k s).1.latched k = true := by rw [latchFlag_eq, hasKind_addKind]; simp
  have flagged : ConditionMoves s (latchFlag k s).1 := (ConditionMove.flag k s).moves
  rw [latch_eq]; split
  · exact flagged.trans (ConditionMove.offer latched).moves
  · exact flagged

theorem latchAll_moves (ks : List Condition) (s : State) : ConditionMoves s (latchAll ks s) := by
  induction ks generalizing s with
  | nil => exact .refl s
  | cons k ks ih => exact (latch_moves k s).trans (ih _)

theorem latchFlags_moves (ks : List Condition) (s : State) : ConditionMoves s (latchFlags ks s).1 := by
  induction ks generalizing s with
  | nil => exact .refl s
  | cons k ks ih => exact (ConditionMove.flag k s).moves.trans (ih _)

/-- Latched kinds are offered their notices in order (R183, R189). -/
theorem offerNotices_moves {ks : List Condition} {s : State} (h : ∀ k ∈ ks, hasKind s.latched k = true) :
    ConditionMoves s (offerNotices ks s) := by
  induction ks generalizing s with
  | nil => exact .refl s
  | cons k ks ih =>
    refine (ConditionMove.offer (h k List.mem_cons_self)).moves.trans (ih fun j hj => ?_)
    rw [(offerNotice_latched k s).1]
    exact h j (List.mem_cons_of_mem k hj)

theorem forwardPath_moves (f : Frame) (s : State) : ConditionMoves s (forwardPath f s) := by
  unfold forwardPath; repeat' split
  · exact latch_moves _ s
  · exact (ConditionMoves.of_same (serve_sameConditions .dTx _)).after rfl
  · exact .refl s

theorem relayPath_moves (f : Frame) (s : State) : ConditionMoves s (relayPath f s) := by
  unfold relayPath; split
  · exact latch_moves _ s
  · exact (ConditionMoves.of_same (serve_sameConditions .aReturnTx _)).after rfl

/-! ## Receivers and ports -/

theorem receiveErrorOp_moves (r : Receiver) (e : ErrorKind) (s : State) : ConditionMoves s (receiveErrorOp r e s) := by
  have latched : ConditionMoves s (latch .frameError (s.setRx r { (s.rx.get r).settled with lastError := some e })) :=
    (latch_moves _ _).after rfl
  unfold receiveErrorOp
  rw [reportBadFrame_rest]
  exact latched.trans (.of_same rfl)

theorem errorAtSample_moves (r : Receiver) (e : DetectedError) (s : State) : ConditionMoves s (errorAtSample r e s) :=
  (receiveErrorOp_moves _ _ _).after rfl

theorem settle_moves (r : Receiver) (s : State) : ConditionMoves s (settle r s) := .of_same rfl

theorem resolve_moves (sel : Fin Config.channels → Bool) (s : State) : ConditionMoves s (resolve sel s) := by
  unfold resolve; dsimp only; split
  · exact (latch_moves _ (resolveQuiet sel s)).after rfl
  · exact .of_same rfl

theorem goodFrame_moves (p : Port) (s : State) : ConditionMoves s (goodFrame p s) := by
  unfold goodFrame; dsimp only; split
  · exact (latch_moves _ (s.setPort p _)).after rfl
  · exact .of_same rfl

theorem acceptFrame_moves (p : Port) (f : LevelFrame) (s : State) : ConditionMoves s (acceptFrame p f s) :=
  ((ConditionMoves.of_same (s := s) (t := s.setPort p _) rfl).trans (goodFrame_moves p _)).trans
    ((resolve_moves _ (moveOwners p _ _)).after rfl)

theorem onLevelA_moves (f : LevelFrame) (s : State) : ConditionMoves s (onLevelA f s) := by
  unfold onLevelA levelAtA
  repeat' split
  · exact errorAtSample_moves _ _ s
  · exact (settle_moves _ s).trans (acceptFrame_moves _ _ _)
  · exact (settle_moves _ s).trans (latch_moves _ _)
  · exact (settle_moves _ s).trans (forwardPath_moves _ _)

theorem onLevelB_moves (f : LevelFrame) (s : State) : ConditionMoves s (onLevelB f s) := by
  unfold onLevelB levelAtB
  repeat' split
  · exact errorAtSample_moves _ _ s
  · exact (settle_moves _ s).trans (acceptFrame_moves _ _ _)
  · exact settle_moves _ s

/-- A port's state is reported and its channels resolved, after latchings of the port (R58). -/
theorem stateReport_moves (p : Port) {s t : State} (h : ConditionMoves s t) : ConditionMoves s (stateReport p t) :=
  h.trans (resolve_moves _ t)

theorem lossExpiryOp_moves (p : Port) (s : State) : ConditionMoves s (lossExpiryOp p s) := by
  have set : ∀ u s, ConditionMoves s (s.setPort p u) := fun _ _ => .of_same rfl
  have event : ∀ n s, ConditionMoves s (lossEvent p n s) := by
    intro n s
    unfold lossEvent
    dsimp only
    split
    · exact stateReport_moves p (set _ s)
    · split
      · exact stateReport_moves p (((set _ s).trans (latch_moves _ _)).trans (latch_moves _ _))
      · exact stateReport_moves p ((set _ s).trans (latch_moves _ _))
    all_goals exact set _ s
  unfold lossExpiryOp; split
  · exact .refl s
  · exact (event _ (s.reach _)).after rfl

theorem holdExpiryOp_moves (p : Port) (s : State) : ConditionMoves s (holdExpiryOp p s) := by
  have set : ∀ u s, ConditionMoves s (s.setPort p u) := fun _ _ => .of_same rfl
  have event : ∀ s, ConditionMoves s (holdEvent p s) := by
    intro s
    unfold holdEvent
    dsimp only
    split
    · exact stateReport_moves p ((set _ s).trans (latch_moves _ _))
    all_goals exact set _ s
  unfold holdExpiryOp; split
  · exact .refl s
  · exact (event (s.reach _)).after rfl

/-! ## Requests -/

/-- A notice is owed only for a kind that latches (R183). -/
theorem mem_of_mem_latchFlags {k : Condition} {ks : List Condition} {s : State} (h : k ∈ (latchFlags ks s).2) :
    k ∈ ks := by
  induction ks generalizing s with
  | nil => exact h
  | cons j ks ih =>
    simp only [latchFlags] at h
    split at h
    · exact (List.mem_cons.mp h).elim (· ▸ List.mem_cons_self) fun h => List.mem_cons_of_mem j (ih h)
    · exact List.mem_cons_of_mem j (ih h)

/-- The kinds of an executed request are flagged, its reply joins, and the kinds owed a notice, all latched, are offered it
(R134, R183). -/
theorem finishRequest_moves (h : RequestHeader) (code : Byte) {c : Carried} (hroom : c.state.queue.length < 8) :
    ConditionMoves c.state (finishRequest h code c) := by
  set flagged := (latchFlags c.latches c.state).1 with hflagged
  set answered := answer h code (formReply h code c flagged) flagged with hanswered
  have hqueue : flagged.queue.length < 8 := by rw [hflagged, latchFlags_queue]; exact hroom
  have joined : ConditionMoves flagged answered :=
    (ConditionMove.join _ h.port (s := flagged.setReplay h.port _) hqueue).moves.after rfl
  have stand : answered.latched = flagged.latched := by rw [hanswered, answer_frame]
  have owed : ∀ k ∈ (latchFlags c.latches c.state).2, hasKind answered.latched k = true := fun k hk => by
    rw [stand, hflagged, latchFlags_hasKind]
    simp [mem_of_mem_latchFlags hk]
  exact ((latchFlags_moves _ _).trans joined).trans (offerNotices_moves owed)

/-- Carrying a command out is such operations, and leaves at least the room that the reply queue had (R130). -/
def CarryMoves (carry : State → Carried) : Prop :=
  ∀ s, ConditionMoves s (carry s).state ∧ (carry s).state.queue.length ≤ s.queue.length

theorem CarryMoves.of_same {carry : State → Carried} (h : ∀ s, SameConditions s (carry s).state) :
    CarryMoves carry := by
  refine fun s => ⟨.of_same (h s), (length_of_entries ?_).le⟩
  exact congrArg (fun x => x.1.entries) (h s)

theorem addressed_moves {carry : State → Carried} (hc : CarryMoves carry) (h : RequestHeader) (code : Byte) (s : State) :
    ConditionMoves s (addressed h code carry s) := by
  obtain ⟨carried, hqueue⟩ := hc s
  unfold addressed
  repeat' split
  · rename_i hroom
    exact (ConditionMove.join _ h.port (s := s.setReplay h.port _) hroom).moves.after rfl
  · exact latch_moves _ s
  · rename_i hroom
    exact carried.trans (finishRequest_moves _ _ (hqueue.trans_lt hroom))
  · exact latch_moves _ s

theorem handOn_moves (h : RequestHeader) (code : Byte) (args : List Byte) (s : State) :
    ConditionMoves s (handOn h code args s) := by
  unfold handOn; split
  · exact forwardPath_moves _ _
  · exact .refl s

theorem broadcast_moves {carry : State → Carried} (hc : CarryMoves carry) (form : BroadcastForm) (h : RequestHeader)
    (code : Byte) (args : List Byte) (s : State) : ConditionMoves s (broadcast form h code args carry s) := by
  have on : ∀ s, ConditionMoves s (handOn h code args s) := handOn_moves h code args
  have carried : ∀ s, ConditionMoves s (carryBroadcast carry s) := fun s => (hc s).1.trans (latchAll_moves _ _)
  cases form with
  | ignored => exact on s
  | restarts => exact (carried s).trans (on _)
  | acts =>
    unfold broadcast broadcastActing State.choose
    dsimp only
    repeat' split
    · exact ((carried _).trans (on _)).after rfl
    · exact ((on _).trans (carried _)).after rfl
    · exact (carried s).trans (on _)

theorem onRequest_moves {carry : State → Carried} (hc : CarryMoves carry) (form : BroadcastForm) (h : RequestHeader)
    (code : Byte) (args : List Byte) (s : State) : ConditionMoves s (onRequest form h code args carry s) := by
  unfold onRequest takeRequest
  repeat' split
  · exact errorAtSample_moves _ _ s
  · exact (settle_moves _ s).trans (addressed_moves hc _ _ _)
  · exact (settle_moves _ s).trans (broadcast_moves hc _ _ _ _ _)
  · exact (settle_moves _ s).trans (handOn_moves _ _ _ _)

theorem guardReserved_moves {carry : State → Carried} (hc : CarryMoves carry) (h : RequestHeader) :
    CarryMoves (guardReserved h carry) := by
  intro s; unfold guardReserved; split
  · exact hc s
  · exact ⟨.refl s, le_rfl⟩

theorem carryForce_moves (first count : BitVec 16) (level : Level) (profile : Byte) :
    CarryMoves (carryForce first count level profile) := by
  refine .of_same fun s => ?_
  unfold carryForce; repeat' split
  all_goals rfl

theorem carryRelease_moves (first count : BitVec 16) : CarryMoves (carryRelease first count) := by
  refine .of_same fun s => ?_
  unfold carryRelease; split <;> rfl

theorem carrySaveScene_moves (scene : Byte) : CarryMoves (carrySaveScene scene) := by
  refine .of_same fun s => ?_
  unfold carrySaveScene; split <;> rfl

theorem carryOpen_moves (o : SessionOwner) : CarryMoves (carryOpen o) := by
  refine .of_same fun s => ?_
  unfold carryOpen; repeat' split
  all_goals rfl

/-- A write to the tables reaches the scene store or the bank that is not in force (R159, R160). -/
theorem carryWrite_moves (o : SessionOwner) (table : Byte) (index : BitVec 16) (count : Byte) (entries : List Byte) :
    CarryMoves (carryWrite o table index count entries) := by
  have written : ∀ t start es s, SameConditions s (writeCarried o t start es s).state := fun t start es s =>
    .of_steady (writeCarried_steady o t start es s) (by cases t <;> rfl)
  refine .of_same fun s => ?_
  unfold carryWrite; repeat' split
  any_goals rfl
  exact written _ _ _ s

theorem carryCommit_moves (o : SessionOwner) (expected : Crc32) : CarryMoves (carryCommit o expected) := by
  refine .of_same fun s => ?_
  unfold carryCommit; split <;> rfl

theorem carryAbort_moves (o : SessionOwner) : CarryMoves (carryAbort o) := by
  refine .of_same fun s => ?_
  unfold carryAbort; repeat' split
  all_goals rfl

theorem carryAck_moves (kinds : KindSet) : CarryMoves (carryAck kinds) :=
  fun s => ⟨(ConditionMove.acknowledge kinds s).moves, le_rfl⟩

/-- A warm restart empties the conditions and the reply queue (R145, R195). -/
theorem carryRestart_moves : CarryMoves carryRestart := fun s =>
  have cleared : (warmRestart s).conditions = ⟨0, 0, false, []⟩ := by rw [warmRestart_eq]; rfl
  have emptied : (warmRestart s).queue.length = 0 := by rw [warmRestart_eq]; rfl
  ⟨(ConditionMove.clear cleared).moves, emptied.trans_le (Nat.zero_le _)⟩

/-! ## Frames and characters -/

/-- A completing frame, whatever command it is (R13). -/
theorem runFrameCommand_moves (i : Instr) (s : State) : ConditionMoves s (runFrameCommand i s) := by
  have request : ∀ {carry : State → Carried}, CarryMoves carry → ∀ form h code args,
      ConditionMoves s (onRequest form h code args (guardReserved h carry) s) :=
    fun hc form h code args => onRequest_moves (guardReserved_moves hc h) form h code args s
  have read : ∀ {carry : State → Carried}, (∀ s, (carry s).state = s) → CarryMoves carry :=
    fun hc => .of_same fun s => by rw [hc s]; rfl
  cases i <;> simp only [runFrameCommand]
  case levelFrameA f => exact onLevelA_moves f s
  case levelFrameB f => exact onLevelB_moves f s
  case forwardFrame f => exact (settle_moves _ s).trans (forwardPath_moves _ _)
  case relayFrame f => exact (settle_moves _ s).trans (relayPath_moves _ _)
  case bFrameDiscarded f => exact settle_moves _ s
  case requestNotTaken h code args => exact (settle_moves _ s).trans (handOn_moves _ _ _ _)
  case badCommand h code args => exact onRequest_moves (read fun _ => rfl) _ _ _ _ _
  case identify h extra => exact request (read fun _ => rfl) _ _ _ _
  case readStatus h extra => exact request (read fun _ => rfl) _ _ _ _
  case readChannels h f c e => exact request (read (carryReadChannels_state f c)) _ _ _ _
  case readInputs h p f c e => exact request (read (carryReadInputs_state p f c)) _ _ _ _
  case readTable h b t i c e => exact request (read (carryReadTable_state b t i c)) _ _ _ _
  case openSession h t e => exact request (carryOpen_moves _) _ _ _ _
  case writeTable h t tb i c e => exact request (carryWrite_moves _ _ _ _ _) _ _ _ _
  case commit h t x e => exact request (carryCommit_moves _ _) _ _ _ _
  case abortSession h t e => exact request (carryAbort_moves _) _ _ _ _
  case force h f c l p e => exact request (carryForce_moves _ _ _ _) _ _ _ _
  case release h f c e => exact request (carryRelease_moves _ _) _ _ _ _
  case saveScene h sc e => exact request (carrySaveScene_moves _) _ _ _ _
  case ackConditions h k e => exact request (carryAck_moves k) _ _ _ _
  case restart h e => exact request carryRestart_moves _ _ _ _
  all_goals exact .refl s

theorem completeFrame_moves (r : Receiver) (f : Frame) (s : State) : ConditionMoves s (completeFrame r f s) := by
  unfold completeFrame; split
  · exact errorAtSample_moves _ _ s
  · exact runFrameCommand_moves _ s

theorem interFrameIdleOp_moves (r : Receiver) (s : State) : ConditionMoves s (interFrameIdleOp r s) := by
  unfold interFrameIdleOp; dsimp only; split <;> exact .of_same rfl

theorem truncatedOp_moves (r : Receiver) (s : State) : ConditionMoves s (truncatedOp r s) := by
  unfold truncatedOp; dsimp only; split
  · exact (receiveErrorOp_moves _ _ _).after rfl
  · exact .refl s

theorem receiveErrorEvent_moves (r : Receiver) (e : DetectedError) (s : State) :
    ConditionMoves s (receiveErrorEvent r e s) := by
  unfold receiveErrorEvent; split
  · exact .refl s
  · exact errorAtSample_moves _ _ s

theorem lineReturnHighOp_moves (r : Receiver) (s : State) : ConditionMoves s (lineReturnHighOp r s) := by
  unfold lineReturnHighOp; dsimp only; split <;> exact .of_same rfl

theorem goodCharacterOp_moves (r : Receiver) (b : Byte) (s : State) : ConditionMoves s (goodCharacterOp r b s) := by
  unfold goodCharacterOp receiveByte
  dsimp only
  repeat' split
  all_goals first
    | exact errorAtSample_moves _ _ s
    | exact completeFrame_moves _ _ s
    | exact .of_same rfl

theorem badCharacterOp_moves (r : Receiver) (s : State) : ConditionMoves s (badCharacterOp r s) := by
  unfold badCharacterOp
  dsimp only
  split
  · exact .of_same rfl
  · exact .of_same rfl
  · exact errorAtSample_moves _ _ s

theorem characterOp_moves (r : Receiver) (w : BitVec 10) (s : State) : ConditionMoves s (characterOp r w s) := by
  have truncate : ∀ n s, ConditionMoves s (truncateBefore r n s) := by
    intro n s; unfold truncateBefore; repeat' split
    · exact truncatedOp_moves r s
    all_goals exact .refl s
  have hunt : ∀ n s, ConditionMoves s (huntBefore r n s) := by
    intro n s; unfold huntBefore; repeat' split
    · exact interFrameIdleOp_moves r s
    all_goals exact .refl s
  have before : ∀ n m s, ConditionMoves s ((huntBefore r n (truncateBefore r n s)).reach m) :=
    fun n m s => ((truncate n s).trans (hunt n _)).trans (.of_same rfl)
  unfold characterOp takeCharacter
  dsimp only
  repeat' split
  · exact .refl s
  · exact .refl s
  · exact (before _ _ s).trans (goodCharacterOp_moves _ _ _)
  · exact (before _ _ s).trans (badCharacterOp_moves _ _)

/-! ## Timers, session and transmitters -/

theorem fadeTickOp_moves (s : State) : ConditionMoves s (fadeTickOp s) := by
  unfold fadeTickOp; dsimp only; repeat' split
  all_goals exact .of_same rfl

theorem sessionExpiryOp_moves (s : State) : ConditionMoves s (sessionExpiryOp s) := by
  unfold sessionExpiryOp; split
  · exact (latch_moves _ (startCopy (s.reach _))).after rfl
  all_goals exact .refl s

theorem verificationCompleteOp_moves (s : State) : ConditionMoves s (verificationCompleteOp s) := by
  unfold verificationCompleteOp
  dsimp only
  repeat' split
  · exact .of_same rfl
  · exact (latch_moves _ _).after rfl
  all_goals exact .refl s

/-- A bank copy writes the bank that is not in force (R173, R174). -/
theorem copyCompleteOp_moves (s : State) : ConditionMoves s (copyCompleteOp s) := by
  unfold copyCompleteOp; split
  · refine .of_same (Prod.ext rfl ?_)
    simp [State.activeBank, State.reach]
  all_goals exact .refl s

theorem transmitCompleteOp_moves (x : Transmitter) (s : State) : ConditionMoves s (transmitCompleteOp x s) := by
  have output : ∀ s, ConditionMoves s (outputCompleted s) := by
    intro s; unfold outputCompleted; split <;> exact .of_same rfl
  unfold transmitCompleteOp; split
  · cases x
    · exact (output _).after rfl
    · exact (ConditionMove.complete .a _).moves.after rfl
    · exact (ConditionMove.complete .b _).moves.after rfl
  all_goals exact .refl s

theorem gapEndOp_moves (x : Transmitter) (s : State) : ConditionMoves s (gapEndOp x s) := by
  unfold gapEndOp; split
  · exact (ConditionMoves.of_same (serve_sameConditions x ((s.reach _).setTx x .free))).after rfl
  all_goals exact .refl s

/-- A changeover exchanges the banks and latches COMMIT_DONE, and its resolution may latch FALLBACK (R60, R171, R192). -/
theorem changeover_moves (k : Crc32) (s : State) : ConditionMoves s (changeover k s) := by
  have tick : ∀ s, ConditionMoves s (tickWithin s) := fun s => by rw [tickWithin_rest]; exact .of_same rfl
  have silence : ∀ old p s, ConditionMoves s (silenceIfAltered old p s) :=
    fun old p s => by rw [silenceIfAltered_rest]; exact .of_same rfl
  have latched : ConditionMoves s (latch .commitDone (exchangeBanks k s)) :=
    (ConditionMove.exchange k s).moves.trans (latch_moves _ _)
  exact ((latched.trans (tick _)).trans ((silence _ _ _).trans (silence _ _ _))).trans
    ((resolve_moves _ (clearOwners _)).after rfl)

theorem takeSnapshot_moves (s : State) : ConditionMoves s (takeSnapshot s) := by
  have offered : ConditionMoves s
      (serveD { s with output := .waiting s.outputSnapshot, nextSequence := s.nextSequence + 1 }) :=
    (ConditionMoves.of_same (serve_sameConditions .dTx _)).after rfl
  unfold takeSnapshot toldOfSnapshot; split
  · exact offered.trans (changeover_moves _ _)
  all_goals exact offered

theorem refreshExpiryOp_moves (s : State) : ConditionMoves s (refreshExpiryOp s) := by
  have restarted : ∀ n t, ConditionMoves t (restartRefresh n t) := fun _ _ => .of_same rfl
  unfold refreshExpiryOp; split
  · exact .refl s
  · rename_i n _
    have reached : ConditionMoves s (s.reach n) := .of_same rfl
    dsimp only
    split
    · exact (reached.trans (takeSnapshot_moves _)).trans (restarted _ _)
    all_goals exact .of_same rfl

/-! ## Commands -/

theorem releaseReset_moves (straps : BitVec 6) (a b d : Bool) (s : State) :
    ConditionMoves s (releaseReset straps a b d s) := by
  rw [releaseReset_eq]; split
  · exact (latch_moves _ (releasedPart straps a b d s)).after rfl
  · exact .of_same rfl

theorem execResetRelease_moves {straps : BitVec 6} {a b d : Bool} {s t : State}
    (h : execResetRelease straps a b d s = .next t) : ConditionMoves s t := by
  unfold execResetRelease at h
  split at h <;> injection h with h <;> subst h
  · exact releaseReset_moves straps a b d s
  · exact .refl s

theorem execPauseAssert_moves {s t : State} (h : execPauseAssert s = .next t) : ConditionMoves s t := by
  unfold execPauseAssert at h
  repeat' split at h
  all_goals
    injection h with h
    subst h
  · exact .refl s
  · exact .of_same rfl
  · exact (latch_moves .paused { s with pause := true }).after rfl

/-- All that a command can do to the conditions and the reply queue. -/
theorem exec_moves {c : Instr} {s t : State} (h : exec c s = .next t) : ConditionMoves s t := by
  have running : ∀ {f : State → State}, ConditionMoves s (f s) → exec c s = whenRunning f s →
      ConditionMoves s t := by
    intro f moves hexec
    obtain rfl | ⟨-, rfl⟩ := whenRunning_cases (hexec.symm.trans h)
    · exact .refl _
    · exact moves
  have frame : exec c s = whenRunning (runFrameCommand c) s → ConditionMoves s t := running (runFrameCommand_moves c s)
  cases c
  case hardReset =>
    obtain rfl : heldInReset s = t := by injection h
    exact (ConditionMove.clear rfl).moves
  case resetRelease => exact execResetRelease_moves h
  case pauseAssert => exact execPauseAssert_moves h
  case pauseRelease =>
    obtain rfl : { s with pause := false } = t := by injection h
    exact .of_same rfl
  case interFrameIdle r => exact running (interFrameIdleOp_moves r s) rfl
  case truncated r => exact running (truncatedOp_moves r s) rfl
  case receiveError r e => exact running (receiveErrorEvent_moves r e s) rfl
  case lineReturnHigh r => exact running (lineReturnHighOp_moves r s) rfl
  case characterReceived r w => exact running (characterOp_moves r w s) rfl
  case fadeTick => exact running (fadeTickOp_moves s) rfl
  case refreshExpiry => exact running (refreshExpiryOp_moves s) rfl
  case lossExpiry p => exact running (lossExpiryOp_moves p s) rfl
  case holdExpiry p => exact running (holdExpiryOp_moves p s) rfl
  case sessionExpiry => exact running (sessionExpiryOp_moves s) rfl
  case verificationComplete => exact running (verificationCompleteOp_moves s) rfl
  case copyComplete => exact running (copyCompleteOp_moves s) rfl
  case transmitComplete x => exact running (transmitCompleteOp_moves x s) rfl
  case gapEnd x => exact running (gapEndOp_moves x s) rfl
  case forwardFrame | relayFrame | bFrameDiscarded | requestNotTaken | badCommand =>
    exact running (completeFrame_moves _ _ s) rfl
  all_goals exact frame rfl

end Sys2Proof.Machine
end

section
/-! Every step keeps ALERT as the latched set and the alert mask have it, and at most one notice owed or queued for each
kind (O54, O55). -/

namespace Sys2Proof.Machine

/-! ## An entry that completes -/

/-- No kind is lowest only in the empty set (R190). -/
theorem eq_zero_of_lowestKind {set : KindSet} (h : lowestKind set = none) : set = 0 :=
  kindSet_ext fun k => by
    rw [hasKind_zero]
    simpa using List.find?_eq_none.mp h k k.mem_all

/-- The lowest kind of a set is in it (R190). -/
theorem hasKind_of_lowestKind {set : KindSet} {k : Condition} (h : lowestKind set = some k) : hasKind set k = true :=
  List.find?_some h

theorem hasKind_removeKind (set : KindSet) (k j : Condition) :
    hasKind (removeKinds set (addKind 0 k)) j = true ↔ hasKind set j = true ∧ j ≠ k := by
  rw [hasKind_removeKinds, hasKind_addKind, hasKind_zero]
  simp

/-- What the completion of an entry leaves of the conditions and the queue: no completion; the entry gone with no kind
pending; or the entry gone and the notice of a pending kind at the tail (R138, R190). -/
theorem entryCompleted_conditions (p : Port) (s : State) :
    (entryCompleted p s).conditions = s.conditions ∨
    ∃ l e r, entries s.queue = l ++ e :: r ∧
      (s.pendingNotices = 0 ∧ (entryCompleted p s).conditions = { s.conditions with entries := l ++ r } ∨
        ∃ k y, hasKind s.pendingNotices k = true ∧ (entryCompleted p s).conditions =
          { s.conditions with
            pendingNotices := removeKinds s.pendingNotices (addKind 0 k)
            entries := l ++ r ++ [(.notice s.node k y, .a)] }) := by
  unfold entryCompleted
  split
  · rename_i q hq
    obtain ⟨l, e, r, hqueue, -, rfl⟩ := removeSending_some hq
    refine .inr ⟨entries l, (e.message, e.destination), entries r, by rw [hqueue]; exact List.map_append, ?_⟩
    cases hk : lowestKind s.pendingNotices with
    | none =>
      have hzero := eq_zero_of_lowestKind hk
      refine .inl ⟨hzero, ?_⟩
      rw [drainPending_zero (s := { s with queue := l ++ r }) hzero, ← entries_append]
      rfl
    | some k =>
      set u : State := { s with
        queue := l ++ r, pendingNotices := removeKinds s.pendingNotices (addKind 0 k) } with hu
      refine .inr ⟨k, u.summaryByte, hasKind_of_lowestKind hk, ?_⟩
      rw [drainPending_eq (s := { s with queue := l ++ r }) hk]
      obtain ⟨hlatched, halert, hpending⟩ := queueNotice_conditions k u
      have hentries : entries (queueNotice k u).queue = entries (l ++ r) ++ [(.notice s.node k u.summaryByte, .a)] :=
        joinQueue_entries _ _ u
      rw [← entries_append, ← hentries]
      show Conditions.mk _ _ _ _ = _
      rw [hlatched, halert, hpending]
      rfl
  · exact .inl rfl

/-- The completion of an entry leaves the latched set, ALERT and the program in force (R138). -/
theorem entryCompleted_latched (p : Port) (s : State) :
    (entryCompleted p s).latched = s.latched ∧ (entryCompleted p s).alert = s.alert := by
  have h : (entryCompleted p s).conditions.latched = s.latched ∧ (entryCompleted p s).conditions.alert = s.alert := by
    obtain h | ⟨l, e, r, -, ⟨-, h⟩ | ⟨k, y, -, h⟩⟩ := entryCompleted_conditions p s
    all_goals
      rw [h]
      exact ⟨rfl, rfl⟩
  exact h

theorem entryCompleted_activeBank (p : Port) (s : State) : (entryCompleted p s).activeBank = s.activeBank := by
  unfold entryCompleted; split
  · exact (drainPending_noticed _).activeBank
  · rfl

/-! ## ALERT -/

/-- Every operation evaluates ALERT where it changes the latched set or the alert mask (R187). -/
theorem ConditionMove.alertFollows {s t : State} (h : ConditionMove s t) (hs : s.AlertFollows) : t.AlertFollows := by
  cases h with
  | stand h =>
    obtain ⟨hconditions, hbank⟩ := Prod.mk.inj h
    exact hs.of (congrArg Conditions.latched hconditions) (congrArg Conditions.alert hconditions) hbank
  | flag k => exact latchFlags_alertFollows (ks := [k]) hs
  | offer =>
    obtain ⟨hlatched, halert⟩ := offerNotice_latched _ s
    exact hs.of hlatched halert (offerNotice_noticed _ s).activeBank
  | join r p => rw [joinQueue_frame]; exact hs.of rfl rfl rfl
  | acknowledge kinds => exact evalAlert_alertFollows _
  | clear h =>
    have hlatched : t.latched = 0 := congrArg Conditions.latched h
    have halert : t.alert = false := congrArg Conditions.alert h
    simp [State.AlertFollows, hlatched, halert]
  | complete p =>
    obtain ⟨hlatched, halert⟩ := entryCompleted_latched p s
    exact hs.of hlatched halert (entryCompleted_activeBank p s)
  | exchange committed => exact evalAlert_alertFollows _

/-! ## Notices -/

/-- How many notices for a kind a list of messages holds (R189). -/
def queuedFor (q : List (Message × Port)) (k : Condition) : Nat := q.countP fun x => x.1.isNoticeOf k

theorem queuedFor_append (q r : List (Message × Port)) (k : Condition) :
    queuedFor (q ++ r) k = queuedFor q k + queuedFor r k := List.countP_append

theorem queuedFor_notice (n y : Byte) (p : Port) (k j : Condition) :
    queuedFor [(.notice n k y, p)] j = if k = j then 1 else 0 := by simp [queuedFor, Message.isNoticeOf]

theorem queuedFor_reply (r : Reply) (p : Port) (k : Condition) : queuedFor [(.reply r, p)] k = 0 := by
  simp [queuedFor, Message.isNoticeOf]

/-- An entry that leaves adds no notice. -/
theorem queuedFor_leave_le (l r : List (Message × Port)) (e : Message × Port) (k : Condition) :
    queuedFor (l ++ r) k ≤ queuedFor (l ++ e :: r) k :=
  ((List.sublist_cons_self e r).append_left l).countP_le

/-- How many notices for a kind are pending (R190). -/
def pendingFor (set : KindSet) (k : Condition) : Nat := if hasKind set k then 1 else 0

theorem pendingFor_mono {x y : KindSet} {k : Condition} (h : hasKind x k = true → hasKind y k = true) :
    pendingFor x k ≤ pendingFor y k := by
  unfold pendingFor
  split
  · rename_i hx; rw [if_pos (h hx)]
  · exact Nat.zero_le _

theorem pendingFor_of_false {set : KindSet} {k : Condition} (h : hasKind set k = false) : pendingFor set k = 0 := by
  simp [pendingFor, h]

theorem pendingFor_of_true {set : KindSet} {k : Condition} (h : hasKind set k = true) : pendingFor set k = 1 := if_pos h

/-- The conditions owe each kind at most one notice, pending only for a latched kind and while the queue is full, and the
queue is within its capacity (R136, R185, R189, R190). -/
structure Conditions.OwedOnce (v : Conditions) : Prop where
  once : ∀ k, queuedFor v.entries k + pendingFor v.pendingNotices k ≤ 1
  latched : ∀ k, hasKind v.pendingNotices k = true → hasKind v.latched k = true
  full : ∀ k, hasKind v.pendingNotices k = true → v.entries.length = 8
  room : v.entries.length ≤ 8

theorem State.owedOnce_iff (s : State) : s.conditions.OwedOnce ↔ s.NoticesOnce ∧ s.queue.length ≤ 8 := by
  have hcount : ∀ k, queuedFor (entries s.queue) k + pendingFor s.pendingNotices k = s.noticesFor k := fun k => by
    unfold queuedFor State.noticesFor entries
    rw [List.countP_map]
    rfl
  have hlength : s.conditions.entries.length = s.queue.length := length_entries s.queue
  constructor
  · rintro ⟨once, latched, full, room⟩
    exact ⟨⟨fun k => hcount k ▸ once k, fun k hk => ⟨latched k hk, hlength ▸ full k hk⟩⟩, hlength ▸ room⟩
  · rintro ⟨⟨once, pending⟩, room⟩
    exact ⟨fun k => (hcount k).trans_le (once k), fun k hk => (pending k hk).1,
      fun k hk => hlength.trans (pending k hk).2, hlength.trans_le room⟩

namespace Conditions.OwedOnce

variable {v : Conditions}

/-- With room in the queue no kind is pending (R190). -/
theorem nothingPending (h : v.OwedOnce) (hroom : v.entries.length < 8) (k : Condition) :
    hasKind v.pendingNotices k = false :=
  Bool.eq_false_iff.mpr fun hk => hroom.ne (h.full k hk)

/-- ALERT does not matter. -/
theorem withAlert (h : v.OwedOnce) (a : Bool) : OwedOnce { v with alert := a } := ⟨h.once, h.latched, h.full, h.room⟩

theorem empty : OwedOnce ⟨0, 0, false, []⟩ where
  once k := by rw [pendingFor_of_false (hasKind_zero k)]; exact Nat.zero_le 1
  latched k hk := by simp at hk
  full k hk := by simp at hk
  room := Nat.zero_le 8

/-- A kind that latches takes nothing from the latched set (R183). -/
theorem flag (h : v.OwedOnce) (s : State) (k : Condition) : (v.flag s k).OwedOnce := by
  unfold Conditions.flag
  split
  · exact h
  · refine ⟨h.once, fun j hj => ?_, h.full, h.room⟩
    rw [hasKind_addKind, h.latched j hj, Bool.true_or]

/-- A notice joins a queue with room, for a kind that has none there (R189). -/
theorem joinNotice (h : v.OwedOnce) (hroom : v.entries.length < 8) {k : Condition} (hnone : queuedFor v.entries k = 0)
    (n y : Byte) (p : Port) : OwedOnce { v with entries := v.entries ++ [(.notice n k y, p)] } where
  once j := by
    have hj := h.once j
    rw [pendingFor_of_false (h.nothingPending hroom j)] at hj ⊢
    rw [queuedFor_append, queuedFor_notice]
    split
    · rename_i hkj; rw [← hkj, hnone]
    · exact hj
  latched := h.latched
  full j hj := absurd hj (by simp [h.nothingPending hroom j])
  room := by simpa using hroom

/-- A kind latched becomes pending with the queue full, and none for it there (R189). -/
theorem addPending (h : v.OwedOnce) (hfull : v.entries.length = 8) {k : Condition} (hk : hasKind v.latched k = true)
    (hnone : queuedFor v.entries k = 0) : OwedOnce { v with pendingNotices := addKind v.pendingNotices k } where
  once j := by
    by_cases hjk : j = k
    · have hpending : pendingFor (addKind v.pendingNotices k) k ≤ 1 := by unfold pendingFor; split <;> decide
      rw [hjk, hnone, Nat.zero_add]
      exact hpending
    · refine (Nat.add_le_add_left (pendingFor_mono fun hj => ?_) _).trans (h.once j)
      simpa [hasKind_addKind, hjk] using hj
  latched j hj := by
    rw [hasKind_addKind, Bool.or_eq_true, decide_eq_true_eq] at hj
    obtain hj | rfl := hj
    · exact h.latched j hj
    · exact hk
  full _ _ := hfull
  room := h.room

/-- An offered notice joins, or its kind becomes pending, only where the kind has none queued or pending (R189). -/
theorem offer (h : v.OwedOnce) (s : State) {k : Condition} (hk : hasKind v.latched k = true) :
    (v.offer s k).OwedOnce := by
  unfold Conditions.offer
  split
  · exact h
  · rename_i hoffered
    have hnone : queuedFor v.entries k = 0 :=
      List.countP_eq_zero.mpr fun e he hn => hoffered (Bool.or_eq_true _ _ ▸ .inr (List.any_eq_true.mpr ⟨e, he, hn⟩))
    split
    · rename_i hroom
      exact h.joinNotice hroom hnone _ _ _
    · rename_i hroom
      exact h.addPending (le_antisymm h.room (not_lt.mp hroom)) hk hnone

/-- A reply is no notice, and it joins only where no kind is pending (R130). -/
theorem joinReply (h : v.OwedOnce) (hroom : v.entries.length < 8) (r : Reply) (p : Port) :
    OwedOnce { v with entries := v.entries ++ [(.reply r, p)] } where
  once k := by rw [queuedFor_append, queuedFor_reply]; exact h.once k
  latched := h.latched
  full k hk := absurd hk (by simp [h.nothingPending hroom k])
  room := by simpa using hroom

/-- An acknowledged kind leaves both sets (R185). -/
theorem acknowledge (h : v.OwedOnce) (kinds : KindSet) (a : Bool) :
    OwedOnce ⟨removeKinds v.latched kinds, removeKinds v.pendingNotices kinds, a, v.entries⟩ := by
  have stood : ∀ k, hasKind (removeKinds v.pendingNotices kinds) k = true → hasKind v.pendingNotices k = true :=
    fun k hk => ((hasKind_of_removed rfl k).mp hk).1
  refine ⟨fun k => (Nat.add_le_add_left (pendingFor_mono (stood k)) _).trans (h.once k), fun k hk => ?_,
    fun k hk => h.full k (stood k hk), h.room⟩
  obtain ⟨hpending, hkept⟩ := (hasKind_of_removed rfl k).mp hk
  exact (hasKind_of_removed rfl k).mpr ⟨h.latched k hpending, hkept⟩

/-- With no kind pending an entry leaves (R138). -/
theorem leave (h : v.OwedOnce) (hzero : v.pendingNotices = 0) {l r : List (Message × Port)} {e : Message × Port}
    (he : v.entries = l ++ e :: r) : OwedOnce { v with entries := l ++ r } where
  once k := (Nat.add_le_add_right (queuedFor_leave_le l r e k) _).trans (he ▸ h.once k)
  latched := h.latched
  full k hk := by simp [hzero] at hk
  room := by
    have hroom := h.room
    rw [he] at hroom
    simp only [List.length_append, List.length_cons] at hroom ⊢
    omega

/-- An entry leaves the full queue and the notice of a pending kind takes its place, no longer pending (R138, R190). -/
theorem replace (h : v.OwedOnce) {l r : List (Message × Port)} {e : Message × Port} (he : v.entries = l ++ e :: r)
    {k : Condition} (hk : hasKind v.pendingNotices k = true) (n y : Byte) (p : Port) :
    OwedOnce { v with
      pendingNotices := removeKinds v.pendingNotices (addKind 0 k)
      entries := l ++ r ++ [(.notice n k y, p)] } := by
  have stood : ∀ j, hasKind (removeKinds v.pendingNotices (addKind 0 k)) j = true → hasKind v.pendingNotices j = true :=
    fun j hj => ((hasKind_removeKind _ _ _).mp hj).1
  have hlength : (l ++ r ++ [((.notice n k y : Message), p)]).length = 8 := by
    have hfull := h.full k hk
    rw [he] at hfull
    simp only [List.length_append, List.length_cons, List.length_nil] at hfull ⊢
    omega
  refine ⟨fun j => ?_, fun j hj => h.latched j (stood j hj), fun _ _ => hlength, hlength.le⟩
  have honce := h.once j
  have hleave := queuedFor_leave_le l r e j
  rw [← he] at hleave
  have hmono := pendingFor_mono (stood j)
  dsimp only
  rw [queuedFor_append, queuedFor_notice]
  split
  · rename_i hkj
    subst hkj
    have hmoved : pendingFor (removeKinds v.pendingNotices (addKind 0 k)) k = 0 :=
      pendingFor_of_false (Bool.eq_false_iff.mpr fun hk => ((hasKind_removeKind _ _ _).mp hk).2 rfl)
    have hpending := pendingFor_of_true hk
    omega
  · omega

end Conditions.OwedOnce

/-- Every operation keeps at most one notice owed or queued for each kind. -/
theorem ConditionMove.owedOnce {s t : State} (h : ConditionMove s t) (hs : s.conditions.OwedOnce) :
    t.conditions.OwedOnce := by
  cases h with
  | stand h =>
    obtain ⟨hconditions, -⟩ := Prod.mk.inj h
    exact hconditions ▸ hs
  | flag k => exact (latchFlag_conditions k s).1 ▸ hs.flag s k
  | offer hk => exact offerNotice_conditions (s := s) _ rfl rfl ▸ hs.offer s hk
  | join r p hroom =>
    have hjoined : (joinQueue (.reply r) p s).conditions =
        { s.conditions with entries := entries s.queue ++ [(.reply r, p)] } := by
      unfold State.conditions; rw [joinQueue_entries, joinQueue_frame]
    exact hjoined ▸ hs.joinReply ((length_entries s.queue).trans_lt hroom) r p
  | acknowledge kinds => exact hs.acknowledge kinds _
  | clear h => exact h ▸ .empty
  | complete p =>
    obtain h | ⟨l, e, r, he, ⟨hzero, h⟩ | ⟨k, y, hk, h⟩⟩ := entryCompleted_conditions p s <;> rw [h]
    · exact hs
    · exact hs.leave hzero he
    · exact hs.replace he hk _ _ _
  | exchange committed => exact hs.withAlert _

/-! ## The claims -/

/-- Settles O54: each operation on the conditions keeps ALERT as R187 has it, and every command is made of them. -/
theorem alertFollowsTheLatchedSet : Obligations.AlertFollowsTheLatchedSet :=
  keptByEveryStep_of_exec (fun _ _ _ _ h => h) fun _ _ _ hs h => (exec_moves h).keeps (·.alertFollows) hs

/-- Settles O55: a notice is offered only for a latched kind that has none, an entry joins only where there is room, and the
entry that leaves a full queue makes room for one pending notice. -/
theorem noticesAreOwedOnce : Obligations.NoticesAreOwedOnce := by
  refine keptByEveryStep_of_exec (fun _ _ _ _ h => h) fun c s t ⟨hs, hcapacity⟩ h => ?_
  have owed : t.conditions.OwedOnce :=
    (exec_moves h).keeps (P := fun u => u.conditions.OwedOnce) (·.owedOnce) (s.owedOnce_iff.mpr ⟨hs, hcapacity.1⟩)
  exact ⟨(t.owedOnce_iff.mp owed).1, (exec_ranges h).1 hcapacity⟩

end Sys2Proof.Machine
end

section
/-! The step with a command waiting (O1); `step_idle` says what it does with none. -/

namespace Sys2Proof.Machine

/-- Settles O1: a queue with a front command takes the branch of `step` that runs it, which replaces the queue and nothing
else before the command. -/
theorem stepRunsFrontCommand : Obligations.StepRunsFrontCommand := by
  intro s c rest hwaiting
  unfold step
  rw [hwaiting]

end Sys2Proof.Machine
end
